-- ==== Sys2Proof/Word.lean ====
section
/-! DEFINITION. The word types of the FFC (00_scope.md R7): CMD, A and D are 32-bit words; a byte is seen only by a
platform that stores words (20_memory.md R41). -/

namespace Sys2Proof

/-- A 32-bit word: a command word, an operand, a result, a binary32 word (R7). -/
abbrev Word := BitVec 32

/-- A byte of a platform's view of a word (R8, R41). -/
abbrev Byte := BitVec 8

end Sys2Proof
end

