-- ==== Sys2Proof/Config.lean ====
section
/-! DEFINITION. What an implementation fixes (00_scope.md R8) and the free values of the model. Nothing here has a body
that could be computed: a claim holds whatever these constants are. -/

namespace Sys2Proof

/-- `P_PLATFORM_BYTE_ORDER` (R8): the byte order of a platform that maps the ports into a byte-addressed space. -/
inductive ByteOrder where
  | little
  | big
  deriving DecidableEq, Repr, Inhabited

/-- `P_RESET_STYLE` (R8): polarity of the reset signal, synchronous or asynchronous assertion. -/
structure ResetStyle where
  /-- the signal is asserted when its level is low -/
  activeLow    : Bool
  /-- asserted without waiting for a clock edge -/
  asynchronous : Bool
  deriving DecidableEq, Repr, Inhabited

/-- Everything the spec leaves open about one clock cycle, as five yes/no choices (93_implementation_defined.md U2, U3;
10_state.md R26; log 2). `ready` and `respond` are the FFC's timing, the others are the host's. -/
structure CycleChoice where
  /-- the host asserts reset in the cycle (R240) -/
  reset    : Bool
  /-- the host raises its next request, if it is not still holding one (R24) -/
  offer    : Bool
  /-- the level of rsp_ready in the cycle (R25) -/
  rspReady : Bool
  /-- the FFC drives req_ready = 1 in the cycle, if it has capacity (R26, U2) -/
  ready    : Bool
  /-- the FFC drives rsp_valid = 1 for the head of `pending` in the cycle (R26, U3: the latency `P_LAT` is open) -/
  respond  : Bool
  deriving DecidableEq, Repr, Inhabited

/-- `P_MAX_OUTSTANDING` less one. The parameter is an integer of at least 1 (R8), so this is any natural number. -/
opaque Config.maxOutstandingPred : Nat

/-- `P_MAX_OUTSTANDING` (R8, R23): the largest number of requests accepted and not yet answered, at least 1 (log 3). -/
def Config.maxOutstanding : Nat := Config.maxOutstandingPred + 1

/-- `P_RESET_STYLE` (R8, R240; log 4). No value or transition of the model depends on it. -/
opaque Config.resetStyle : ResetStyle

/-- `P_PLATFORM_BYTE_ORDER` (R8, R41; log 5). No result depends on it. -/
opaque Config.platformByteOrder : ByteOrder

/-- The open choices of the cycle with the given number, where State.sched does not fix them (log 2). -/
opaque Config.freeCycle : Nat → CycleChoice

/-- rsp_d while rsp_valid = 0: unspecified (R33, U1; log 6). -/
opaque Config.freeRspD : Nat → Word

/-- rsp_ill while rsp_valid = 0: unspecified (R33, U1; log 6). -/
opaque Config.freeRspIll : Nat → Bool

/-- req_cmd while req_valid = 0: whatever the host drives (log 7). -/
opaque Config.freeReqCmd : Nat → Word

/-- req_a while req_valid = 0: whatever the host drives (log 7). -/
opaque Config.freeReqA : Nat → Word

end Sys2Proof
end

