-- ==== Sys2Proof/Machine/Bits.lean ====
section
/-! DEFINITION. The notation of 00_scope.md R9 on unbounded integers: bit fields, `ones`, `bitlen`, zero extension, and the
bytes of a word for a platform that stores words (20_memory.md R41). -/

namespace Sys2Proof.Machine

/-- `v[hi:lo]`, read as an unsigned integer (R9). -/
def field (v hi lo : Nat) : Nat := v / 2 ^ lo % 2 ^ (hi + 1 - lo)

/-- `ones(n) = 2^n - 1` (R9). -/
def ones (n : Nat) : Nat := 2 ^ n - 1

/-- `bitlen(n)`: the number of bits in the binary form of `n > 0` (R9); `floor(log2 n) + 1`. -/
def bitlen (n : Nat) : Nat := n.log2 + 1

/-- `zext_32(v)` (R9). -/
def zext32 (v : Nat) : Word := BitVec.ofNat 32 v

/-- Byte `i` of a word, byte 0 the least significant. -/
def byteOf (w : Word) (i : Nat) : Byte := BitVec.ofNat 8 (field w.toNat (8 * i + 7) (8 * i))

/-- The four bytes of a word at rising addresses, in the byte order of a platform (R41; log 5). -/
def wordBytes : ByteOrder → Word → List Byte
  | .little, w => [byteOf w 0, byteOf w 1, byteOf w 2, byteOf w 3]
  | .big,    w => [byteOf w 3, byteOf w 2, byteOf w 1, byteOf w 0]

/-- The word whose bytes at rising addresses are `b0 b1 b2 b3` (R41). -/
def bytesWord : ByteOrder → Byte → Byte → Byte → Byte → Word
  | .little, b0, b1, b2, b3 => b3 ++ b2 ++ b1 ++ b0
  | .big,    b0, b1, b2, b3 => b0 ++ b1 ++ b2 ++ b3

end Sys2Proof.Machine
end

