-- ==== Sys2Proof/Syntax.lean ====
section
/-! DEFINITION. The syntax of the FFC: formats, operations, selectors, the fields of a command word, and the 48
instructions, one constructor per row of spec/opcode_table.json. -/

namespace Sys2Proof

/-- The four narrow formats (00_scope.md R3, 30_encoding.md R66). -/
inductive Fmt where
  | bf16
  | fp16
  | e4m3fn
  | e4m3fnuz
  deriving DecidableEq, Repr

/-- The operations (R61). -/
inductive Op where
  | dec
  | enc
  | cvt
  | const
  | specq
  deriving DecidableEq, Repr

/-- The CONST selectors (R67). -/
inductive Sel where
  | minnorm
  | maxfin
  | eps
  | qnan
  | pinf
  | ninf
  deriving DecidableEq, Repr

/-- The five fields of a command word (R60). -/
structure Fields where
  /-- `CMD[3:0]` -/
  op   : BitVec 4
  /-- `CMD[7:4]` -/
  fa   : BitVec 4
  /-- `CMD[11:8]` -/
  fb   : BitVec 4
  /-- `CMD[15:12]` -/
  sel  : BitVec 4
  /-- `CMD[31:16]` -/
  rsvd : BitVec 16
  deriving DecidableEq, Repr

/-- The instructions. A command word has no free field (R85), so no constructor has an argument: the operand is the word
`A` of the request that carries the command (R69). -/
inductive Instr where
  /-- `DEC.BF16`, CMD = 0x00000000 (R101) -/
  | decBf16
  /-- `DEC.FP16`, CMD = 0x00000010 (R102) -/
  | decFp16
  /-- `DEC.E4M3FN`, CMD = 0x00000020 (R103) -/
  | decE4m3fn
  /-- `DEC.E4M3FNUZ`, CMD = 0x00000030 (R104) -/
  | decE4m3fnuz
  /-- `ENC.BF16`, CMD = 0x00000001 (R140) -/
  | encBf16
  /-- `ENC.FP16`, CMD = 0x00000011 (R141) -/
  | encFp16
  /-- `ENC.E4M3FN`, CMD = 0x00000021 (R142) -/
  | encE4m3fn
  /-- `ENC.E4M3FNUZ`, CMD = 0x00000031 (R143) -/
  | encE4m3fnuz
  /-- `CVT.BF16.BF16`, CMD = 0x00000002 (R171) -/
  | cvtBf16Bf16
  /-- `CVT.BF16.FP16`, CMD = 0x00000102 (R172) -/
  | cvtBf16Fp16
  /-- `CVT.BF16.E4M3FN`, CMD = 0x00000202 (R173) -/
  | cvtBf16E4m3fn
  /-- `CVT.BF16.E4M3FNUZ`, CMD = 0x00000302 (R174) -/
  | cvtBf16E4m3fnuz
  /-- `CVT.FP16.BF16`, CMD = 0x00000012 (R175) -/
  | cvtFp16Bf16
  /-- `CVT.FP16.FP16`, CMD = 0x00000112 (R176) -/
  | cvtFp16Fp16
  /-- `CVT.FP16.E4M3FN`, CMD = 0x00000212 (R177) -/
  | cvtFp16E4m3fn
  /-- `CVT.FP16.E4M3FNUZ`, CMD = 0x00000312 (R178) -/
  | cvtFp16E4m3fnuz
  /-- `CVT.E4M3FN.BF16`, CMD = 0x00000022 (R179) -/
  | cvtE4m3fnBf16
  /-- `CVT.E4M3FN.FP16`, CMD = 0x00000122 (R180) -/
  | cvtE4m3fnFp16
  /-- `CVT.E4M3FN.E4M3FN`, CMD = 0x00000222 (R181) -/
  | cvtE4m3fnE4m3fn
  /-- `CVT.E4M3FN.E4M3FNUZ`, CMD = 0x00000322 (R182) -/
  | cvtE4m3fnE4m3fnuz
  /-- `CVT.E4M3FNUZ.BF16`, CMD = 0x00000032 (R183) -/
  | cvtE4m3fnuzBf16
  /-- `CVT.E4M3FNUZ.FP16`, CMD = 0x00000132 (R184) -/
  | cvtE4m3fnuzFp16
  /-- `CVT.E4M3FNUZ.E4M3FN`, CMD = 0x00000232 (R185) -/
  | cvtE4m3fnuzE4m3fn
  /-- `CVT.E4M3FNUZ.E4M3FNUZ`, CMD = 0x00000332 (R186) -/
  | cvtE4m3fnuzE4m3fnuz
  /-- `CONST.BF16.MINNORM`, CMD = 0x00000003 (R191) -/
  | constBf16Minnorm
  /-- `CONST.BF16.MAXFIN`, CMD = 0x00001003 (R191) -/
  | constBf16Maxfin
  /-- `CONST.BF16.EPS`, CMD = 0x00002003 (R191) -/
  | constBf16Eps
  /-- `CONST.BF16.QNAN`, CMD = 0x00003003 (R191) -/
  | constBf16Qnan
  /-- `CONST.BF16.PINF`, CMD = 0x00004003 (R191) -/
  | constBf16Pinf
  /-- `CONST.BF16.NINF`, CMD = 0x00005003 (R191) -/
  | constBf16Ninf
  /-- `CONST.FP16.MINNORM`, CMD = 0x00000013 (R192) -/
  | constFp16Minnorm
  /-- `CONST.FP16.MAXFIN`, CMD = 0x00001013 (R192) -/
  | constFp16Maxfin
  /-- `CONST.FP16.EPS`, CMD = 0x00002013 (R192) -/
  | constFp16Eps
  /-- `CONST.FP16.QNAN`, CMD = 0x00003013 (R192) -/
  | constFp16Qnan
  /-- `CONST.FP16.PINF`, CMD = 0x00004013 (R192) -/
  | constFp16Pinf
  /-- `CONST.FP16.NINF`, CMD = 0x00005013 (R192) -/
  | constFp16Ninf
  /-- `CONST.E4M3FN.MINNORM`, CMD = 0x00000023 (R193) -/
  | constE4m3fnMinnorm
  /-- `CONST.E4M3FN.MAXFIN`, CMD = 0x00001023 (R193) -/
  | constE4m3fnMaxfin
  /-- `CONST.E4M3FN.EPS`, CMD = 0x00002023 (R193) -/
  | constE4m3fnEps
  /-- `CONST.E4M3FN.QNAN`, CMD = 0x00003023 (R193) -/
  | constE4m3fnQnan
  /-- `CONST.E4M3FNUZ.MINNORM`, CMD = 0x00000033 (R194) -/
  | constE4m3fnuzMinnorm
  /-- `CONST.E4M3FNUZ.MAXFIN`, CMD = 0x00001033 (R194) -/
  | constE4m3fnuzMaxfin
  /-- `CONST.E4M3FNUZ.EPS`, CMD = 0x00002033 (R194) -/
  | constE4m3fnuzEps
  /-- `CONST.E4M3FNUZ.QNAN`, CMD = 0x00003033 (R194) -/
  | constE4m3fnuzQnan
  /-- `SPECQ.BF16`, CMD = 0x00000004 (R201) -/
  | specqBf16
  /-- `SPECQ.FP16`, CMD = 0x00000014 (R202) -/
  | specqFp16
  /-- `SPECQ.E4M3FN`, CMD = 0x00000024 (R203) -/
  | specqE4m3fn
  /-- `SPECQ.E4M3FNUZ`, CMD = 0x00000034 (R204) -/
  | specqE4m3fnuz
  deriving DecidableEq, Repr

/-- The mnemonic of an instruction as the opcode map spells it (R87). -/
def Instr.mnemonic : Instr → String
  | .decBf16 => "DEC.BF16"
  | .decFp16 => "DEC.FP16"
  | .decE4m3fn => "DEC.E4M3FN"
  | .decE4m3fnuz => "DEC.E4M3FNUZ"
  | .encBf16 => "ENC.BF16"
  | .encFp16 => "ENC.FP16"
  | .encE4m3fn => "ENC.E4M3FN"
  | .encE4m3fnuz => "ENC.E4M3FNUZ"
  | .cvtBf16Bf16 => "CVT.BF16.BF16"
  | .cvtBf16Fp16 => "CVT.BF16.FP16"
  | .cvtBf16E4m3fn => "CVT.BF16.E4M3FN"
  | .cvtBf16E4m3fnuz => "CVT.BF16.E4M3FNUZ"
  | .cvtFp16Bf16 => "CVT.FP16.BF16"
  | .cvtFp16Fp16 => "CVT.FP16.FP16"
  | .cvtFp16E4m3fn => "CVT.FP16.E4M3FN"
  | .cvtFp16E4m3fnuz => "CVT.FP16.E4M3FNUZ"
  | .cvtE4m3fnBf16 => "CVT.E4M3FN.BF16"
  | .cvtE4m3fnFp16 => "CVT.E4M3FN.FP16"
  | .cvtE4m3fnE4m3fn => "CVT.E4M3FN.E4M3FN"
  | .cvtE4m3fnE4m3fnuz => "CVT.E4M3FN.E4M3FNUZ"
  | .cvtE4m3fnuzBf16 => "CVT.E4M3FNUZ.BF16"
  | .cvtE4m3fnuzFp16 => "CVT.E4M3FNUZ.FP16"
  | .cvtE4m3fnuzE4m3fn => "CVT.E4M3FNUZ.E4M3FN"
  | .cvtE4m3fnuzE4m3fnuz => "CVT.E4M3FNUZ.E4M3FNUZ"
  | .constBf16Minnorm => "CONST.BF16.MINNORM"
  | .constBf16Maxfin => "CONST.BF16.MAXFIN"
  | .constBf16Eps => "CONST.BF16.EPS"
  | .constBf16Qnan => "CONST.BF16.QNAN"
  | .constBf16Pinf => "CONST.BF16.PINF"
  | .constBf16Ninf => "CONST.BF16.NINF"
  | .constFp16Minnorm => "CONST.FP16.MINNORM"
  | .constFp16Maxfin => "CONST.FP16.MAXFIN"
  | .constFp16Eps => "CONST.FP16.EPS"
  | .constFp16Qnan => "CONST.FP16.QNAN"
  | .constFp16Pinf => "CONST.FP16.PINF"
  | .constFp16Ninf => "CONST.FP16.NINF"
  | .constE4m3fnMinnorm => "CONST.E4M3FN.MINNORM"
  | .constE4m3fnMaxfin => "CONST.E4M3FN.MAXFIN"
  | .constE4m3fnEps => "CONST.E4M3FN.EPS"
  | .constE4m3fnQnan => "CONST.E4M3FN.QNAN"
  | .constE4m3fnuzMinnorm => "CONST.E4M3FNUZ.MINNORM"
  | .constE4m3fnuzMaxfin => "CONST.E4M3FNUZ.MAXFIN"
  | .constE4m3fnuzEps => "CONST.E4M3FNUZ.EPS"
  | .constE4m3fnuzQnan => "CONST.E4M3FNUZ.QNAN"
  | .specqBf16 => "SPECQ.BF16"
  | .specqFp16 => "SPECQ.FP16"
  | .specqE4m3fn => "SPECQ.E4M3FN"
  | .specqE4m3fnuz => "SPECQ.E4M3FNUZ"

end Sys2Proof
end

