-- ==== Sys2Proof/Machine/Format.lean ====
section
/-! DEFINITION. The narrow data formats: the FormatSpec records (30_encoding.md R70), field positions (R71), exponent range
and limits (R76, R77), the NaN pattern (R78) and the pattern helpers (R79). They are constants of the hardware: no command
writes them and reset does not change them (10_state.md R30). A narrow pattern is the natural number its `W` bits spell. -/

namespace Sys2Proof.Machine

/-- The special-value kinds of R10 and R70. -/
inductive Kind where
  | ieee
  | fn
  | fnuz
  deriving DecidableEq, Repr

/-- A FormatSpec record (R70): widths, bias, kind. -/
structure FormatSpec where
  w    : Nat
  e    : Nat
  m    : Nat
  bias : Nat
  kind : Kind
  deriving DecidableEq, Repr

end Sys2Proof.Machine

namespace Sys2Proof

open Machine

/-- The table of R70. -/
def Fmt.spec : Fmt → FormatSpec
  | .bf16     => { w := 16, e := 8, m := 7,  bias := 127, kind := .ieee }
  | .fp16     => { w := 16, e := 5, m := 10, bias := 15,  kind := .ieee }
  | .e4m3fn   => { w := 8,  e := 4, m := 3,  bias := 7,   kind := .fn }
  | .e4m3fnuz => { w := 8,  e := 4, m := 3,  bias := 8,   kind := .fnuz }

/-- The format codes of R66. -/
def Fmt.code : Fmt → BitVec 4
  | .bf16     => 0
  | .fp16     => 1
  | .e4m3fn   => 2
  | .e4m3fnuz => 3

/-- `Fmt(c)` (R66): the format of a code; the codes 4 to 15 are reserved. -/
def Fmt.ofCode (c : BitVec 4) : Option Fmt :=
  if c = 0 then some .bf16
  else if c = 1 then some .fp16
  else if c = 2 then some .e4m3fn
  else if c = 3 then some .e4m3fnuz
  else none

/-- The selector codes of R67. -/
def Sel.code : Sel → BitVec 4
  | .minnorm => 0
  | .maxfin  => 1
  | .eps     => 2
  | .qnan    => 3
  | .pinf    => 4
  | .ninf    => 5

/-- The selector of a code (R67); the codes 6 to 15 are reserved. -/
def Sel.ofCode (c : BitVec 4) : Option Sel :=
  if c = 0 then some .minnorm
  else if c = 1 then some .maxfin
  else if c = 2 then some .eps
  else if c = 3 then some .qnan
  else if c = 4 then some .pinf
  else if c = 5 then some .ninf
  else none

/-- Whether the selector names an infinity, which only the IEEE kinds have (R67). -/
def Sel.isInf : Sel → Bool
  | .pinf | .ninf => true
  | .minnorm | .maxfin | .eps | .qnan => false

/-- The operation codes of R61. -/
def Op.code : Op → BitVec 4
  | .dec   => 0
  | .enc   => 1
  | .cvt   => 2
  | .const => 3
  | .specq => 4

/-- The operation of a code (R61); the codes 5 to 15 are reserved. -/
def Op.ofCode (c : BitVec 4) : Option Op :=
  if c = 0 then some .dec
  else if c = 1 then some .enc
  else if c = 2 then some .cvt
  else if c = 3 then some .const
  else if c = 4 then some .specq
  else none

/-- The sign of a pattern, `b[W-1]` (R71). -/
def Fmt.signOf (f : Fmt) (b : Nat) : Bool := decide (field b (f.spec.w - 1) (f.spec.w - 1) = 1)

/-- The exponent field of a pattern, `b[W-2:M]` (R71). -/
def Fmt.expOf (f : Fmt) (b : Nat) : Nat := field b (f.spec.w - 2) f.spec.m

/-- The mantissa field of a pattern, `b[M-1:0]` (R71). -/
def Fmt.manOf (f : Fmt) (b : Nat) : Nat := field b (f.spec.m - 1) 0

/-- `{s, e as E bits, m as M bits}`: a narrow pattern from its three fields (R71). -/
def Fmt.pat (f : Fmt) (s : Bool) (e m : Nat) : Nat :=
  s.toNat * 2 ^ (f.spec.w - 1) + e % 2 ^ f.spec.e * 2 ^ f.spec.m + m % 2 ^ f.spec.m

/-- `emin(F)`: the unbiased exponent of the smallest normal (R76). -/
def Fmt.emin (f : Fmt) : Int := 1 - f.spec.bias

/-- The largest finite exponent field (R76). -/
def Fmt.topExp (f : Fmt) : Nat :=
  match f.spec.kind with
  | .ieee => 2 ^ f.spec.e - 2
  | .fn   => 2 ^ f.spec.e - 1
  | .fnuz => 2 ^ f.spec.e - 1

/-- `emax(F)`: the unbiased exponent of the largest finite value (R76). -/
def Fmt.emax (f : Fmt) : Int := f.topExp - f.spec.bias

/-- The significand of `MAXF(F)` in R77's form `sig × 2^q`. -/
def Fmt.maxSig : Fmt → Nat
  | .bf16     => 255
  | .fp16     => 2047
  | .e4m3fn   => 14
  | .e4m3fnuz => 15

/-- The exponent of `MAXF(F)` in R77's form `sig × 2^q`. -/
def Fmt.maxExp : Fmt → Int
  | .bf16     => 120
  | .fp16     => 5
  | .e4m3fn   => 5
  | .e4m3fnuz => 4

/-- `MAXFPAT(F)`: the pattern of the largest finite value (R77). -/
def Fmt.maxPat : Fmt → Nat
  | .bf16     => 0x7F7F
  | .fp16     => 0x7BFF
  | .e4m3fn   => 0x7E
  | .e4m3fnuz => 0x7F

/-- `QNAN(F)`: the one NaN pattern the FFC emits (R78; log 15). -/
def Fmt.qnan : Fmt → Nat
  | .bf16     => 0x7FC0
  | .fp16     => 0x7E00
  | .e4m3fn   => 0x7F
  | .e4m3fnuz => 0x80

/-- `INF(F, s)`, for the IEEE kinds (R79). -/
def Fmt.inf (f : Fmt) (s : Bool) : Nat := f.pat s (ones f.spec.e) 0

/-- `ZERO(F, s)`: FNUZ has the single zero 0 (R79). -/
def Fmt.zero (f : Fmt) (s : Bool) : Nat :=
  if f.spec.kind = .fnuz then 0 else s.toNat * 2 ^ (f.spec.w - 1)

/-- `SAT(F, s)`, the signed largest finite pattern (R79). -/
def Fmt.sat (f : Fmt) (s : Bool) : Nat := s.toNat * 2 ^ (f.spec.w - 1) + f.maxPat

end Sys2Proof
end

