-- ==== Sys2Proof/Machine/Legality.lean ====
section
/-! DEFINITION. The fields of a command word (30_encoding.md R60 to R65) and the legality test `Legal(CMD)` (R68). -/

namespace Sys2Proof

open Machine

/-- The fields of a command word (R60). -/
def Fields.ofWord (w : Word) : Fields where
  op   := w.extractLsb' 0 4
  fa   := w.extractLsb' 4 4
  fb   := w.extractLsb' 8 4
  sel  := w.extractLsb' 12 4
  rsvd := w.extractLsb' 16 16

/-- `CMD = RSVD<<16 | SEL<<12 | FB<<8 | FA<<4 | OP` (R60). -/
def Fields.toWord (c : Fields) : Word := c.rsvd ++ c.sel ++ c.fb ++ c.fa ++ c.op

/-- Whether a format code is the code of a format with infinity, `Fmt(FA).kind == IEEE` (R68). -/
def Fields.faIsIeee (c : Fields) : Bool :=
  match Fmt.ofCode c.fa with
  | some f => decide (f.spec.kind = .ieee)
  | none   => false

/-- `Legal(CMD)` on the fields, clause by clause as R68 writes it. -/
def Fields.legal (c : Fields) : Bool :=
  if c.rsvd ≠ 0 then false
  else if c.fa > 3 then false
  else match Op.ofCode c.op with
    | some .dec   => decide (c.fb = 0) && decide (c.sel = 0)
    | some .enc   => decide (c.fb = 0) && decide (c.sel = 0)
    | some .specq => decide (c.fb = 0) && decide (c.sel = 0)
    | some .cvt   => decide (c.fb ≤ 3) && decide (c.sel = 0)
    | some .const => decide (c.fb = 0) && (decide (c.sel ≤ 3) || (decide (c.sel ≤ 5) && c.faIsIeee))
    | none        => false

/-- `Legal(CMD)` (R68). -/
def legal (cmd : Word) : Bool := (Fields.ofWord cmd).legal

end Sys2Proof
end

