-- ==== Sys2Proof/WellFormed.lean ====
section
/-! DEFINITION. Well-formed commands: the fields pass the legality test of 30_encoding.md R68. An instruction of the opcode
map (R87) is well-formed when its own fields are. -/

namespace Sys2Proof

/-- A command of fields is well-formed when R68 calls its word legal. -/
abbrev Fields.WellFormed (c : Fields) : Prop := c.legal = true

/-- The fields R82 gives each instruction, by its operation, formats and selector. -/
def Instr.fields : Instr → Fields
  | .decBf16 => ⟨Op.dec.code, Fmt.bf16.code, 0, 0, 0⟩
  | .decFp16 => ⟨Op.dec.code, Fmt.fp16.code, 0, 0, 0⟩
  | .decE4m3fn => ⟨Op.dec.code, Fmt.e4m3fn.code, 0, 0, 0⟩
  | .decE4m3fnuz => ⟨Op.dec.code, Fmt.e4m3fnuz.code, 0, 0, 0⟩
  | .encBf16 => ⟨Op.enc.code, Fmt.bf16.code, 0, 0, 0⟩
  | .encFp16 => ⟨Op.enc.code, Fmt.fp16.code, 0, 0, 0⟩
  | .encE4m3fn => ⟨Op.enc.code, Fmt.e4m3fn.code, 0, 0, 0⟩
  | .encE4m3fnuz => ⟨Op.enc.code, Fmt.e4m3fnuz.code, 0, 0, 0⟩
  | .cvtBf16Bf16 => ⟨Op.cvt.code, Fmt.bf16.code, Fmt.bf16.code, 0, 0⟩
  | .cvtBf16Fp16 => ⟨Op.cvt.code, Fmt.bf16.code, Fmt.fp16.code, 0, 0⟩
  | .cvtBf16E4m3fn => ⟨Op.cvt.code, Fmt.bf16.code, Fmt.e4m3fn.code, 0, 0⟩
  | .cvtBf16E4m3fnuz => ⟨Op.cvt.code, Fmt.bf16.code, Fmt.e4m3fnuz.code, 0, 0⟩
  | .cvtFp16Bf16 => ⟨Op.cvt.code, Fmt.fp16.code, Fmt.bf16.code, 0, 0⟩
  | .cvtFp16Fp16 => ⟨Op.cvt.code, Fmt.fp16.code, Fmt.fp16.code, 0, 0⟩
  | .cvtFp16E4m3fn => ⟨Op.cvt.code, Fmt.fp16.code, Fmt.e4m3fn.code, 0, 0⟩
  | .cvtFp16E4m3fnuz => ⟨Op.cvt.code, Fmt.fp16.code, Fmt.e4m3fnuz.code, 0, 0⟩
  | .cvtE4m3fnBf16 => ⟨Op.cvt.code, Fmt.e4m3fn.code, Fmt.bf16.code, 0, 0⟩
  | .cvtE4m3fnFp16 => ⟨Op.cvt.code, Fmt.e4m3fn.code, Fmt.fp16.code, 0, 0⟩
  | .cvtE4m3fnE4m3fn => ⟨Op.cvt.code, Fmt.e4m3fn.code, Fmt.e4m3fn.code, 0, 0⟩
  | .cvtE4m3fnE4m3fnuz => ⟨Op.cvt.code, Fmt.e4m3fn.code, Fmt.e4m3fnuz.code, 0, 0⟩
  | .cvtE4m3fnuzBf16 => ⟨Op.cvt.code, Fmt.e4m3fnuz.code, Fmt.bf16.code, 0, 0⟩
  | .cvtE4m3fnuzFp16 => ⟨Op.cvt.code, Fmt.e4m3fnuz.code, Fmt.fp16.code, 0, 0⟩
  | .cvtE4m3fnuzE4m3fn => ⟨Op.cvt.code, Fmt.e4m3fnuz.code, Fmt.e4m3fn.code, 0, 0⟩
  | .cvtE4m3fnuzE4m3fnuz => ⟨Op.cvt.code, Fmt.e4m3fnuz.code, Fmt.e4m3fnuz.code, 0, 0⟩
  | .constBf16Minnorm => ⟨Op.const.code, Fmt.bf16.code, 0, Sel.minnorm.code, 0⟩
  | .constBf16Maxfin => ⟨Op.const.code, Fmt.bf16.code, 0, Sel.maxfin.code, 0⟩
  | .constBf16Eps => ⟨Op.const.code, Fmt.bf16.code, 0, Sel.eps.code, 0⟩
  | .constBf16Qnan => ⟨Op.const.code, Fmt.bf16.code, 0, Sel.qnan.code, 0⟩
  | .constBf16Pinf => ⟨Op.const.code, Fmt.bf16.code, 0, Sel.pinf.code, 0⟩
  | .constBf16Ninf => ⟨Op.const.code, Fmt.bf16.code, 0, Sel.ninf.code, 0⟩
  | .constFp16Minnorm => ⟨Op.const.code, Fmt.fp16.code, 0, Sel.minnorm.code, 0⟩
  | .constFp16Maxfin => ⟨Op.const.code, Fmt.fp16.code, 0, Sel.maxfin.code, 0⟩
  | .constFp16Eps => ⟨Op.const.code, Fmt.fp16.code, 0, Sel.eps.code, 0⟩
  | .constFp16Qnan => ⟨Op.const.code, Fmt.fp16.code, 0, Sel.qnan.code, 0⟩
  | .constFp16Pinf => ⟨Op.const.code, Fmt.fp16.code, 0, Sel.pinf.code, 0⟩
  | .constFp16Ninf => ⟨Op.const.code, Fmt.fp16.code, 0, Sel.ninf.code, 0⟩
  | .constE4m3fnMinnorm => ⟨Op.const.code, Fmt.e4m3fn.code, 0, Sel.minnorm.code, 0⟩
  | .constE4m3fnMaxfin => ⟨Op.const.code, Fmt.e4m3fn.code, 0, Sel.maxfin.code, 0⟩
  | .constE4m3fnEps => ⟨Op.const.code, Fmt.e4m3fn.code, 0, Sel.eps.code, 0⟩
  | .constE4m3fnQnan => ⟨Op.const.code, Fmt.e4m3fn.code, 0, Sel.qnan.code, 0⟩
  | .constE4m3fnuzMinnorm => ⟨Op.const.code, Fmt.e4m3fnuz.code, 0, Sel.minnorm.code, 0⟩
  | .constE4m3fnuzMaxfin => ⟨Op.const.code, Fmt.e4m3fnuz.code, 0, Sel.maxfin.code, 0⟩
  | .constE4m3fnuzEps => ⟨Op.const.code, Fmt.e4m3fnuz.code, 0, Sel.eps.code, 0⟩
  | .constE4m3fnuzQnan => ⟨Op.const.code, Fmt.e4m3fnuz.code, 0, Sel.qnan.code, 0⟩
  | .specqBf16 => ⟨Op.specq.code, Fmt.bf16.code, 0, 0, 0⟩
  | .specqFp16 => ⟨Op.specq.code, Fmt.fp16.code, 0, 0, 0⟩
  | .specqE4m3fn => ⟨Op.specq.code, Fmt.e4m3fn.code, 0, 0, 0⟩
  | .specqE4m3fnuz => ⟨Op.specq.code, Fmt.e4m3fnuz.code, 0, 0, 0⟩

/-- An instruction is well-formed when its fields are. -/
abbrev Instr.WellFormed (i : Instr) : Prop := i.fields.WellFormed

end Sys2Proof
end

