-- ==== Sys2Proof/Decode.lean ====
section
/-! DEFINITION. The command decoder, total on every word and on any bytes, rejecting by name (30_encoding.md R60 to R68,
R85, R86), and the encoder, written from the opcode map (R87). -/

namespace Sys2Proof

open Machine

/-- Why a word is no command: the causes of 60_exceptions.md R210. The FFC itself does not tell them apart (R210). -/
inductive Reject where
  /-- `CMD[31:16]` is not zero (R65) -/
  | nonzeroRsvd
  /-- `OP` is 5 to 15 (R61) -/
  | reservedOp
  /-- `FA`, or `FB` for CVT, is 4 to 15 (R62, R63, R66) -/
  | reservedFormat
  /-- `FB` is not zero for an `OP` other than CVT (R63) -/
  | nonzeroFb
  /-- `SEL` is not zero for an `OP` other than CONST (R64) -/
  | nonzeroSel
  /-- `SEL` is 6 to 15 (R67) -/
  | reservedSel
  /-- `SEL` is 4 or 5 with a format that has no infinity (R67) -/
  | noInfinity
  /-- fewer than four bytes stand where a platform stored a command word (R86); no FFC request is ever short -/
  | truncated
  deriving DecidableEq, Repr

/-- `DEC.<F>`. -/
def decInstr : Fmt → Instr
  | .bf16 => .decBf16
  | .fp16 => .decFp16
  | .e4m3fn => .decE4m3fn
  | .e4m3fnuz => .decE4m3fnuz

/-- `ENC.<F>`. -/
def encInstr : Fmt → Instr
  | .bf16 => .encBf16
  | .fp16 => .encFp16
  | .e4m3fn => .encE4m3fn
  | .e4m3fnuz => .encE4m3fnuz

/-- `CVT.<FA>.<FB>`. -/
def cvtInstr : Fmt → Fmt → Instr
  | .bf16, .bf16 => .cvtBf16Bf16
  | .bf16, .fp16 => .cvtBf16Fp16
  | .bf16, .e4m3fn => .cvtBf16E4m3fn
  | .bf16, .e4m3fnuz => .cvtBf16E4m3fnuz
  | .fp16, .bf16 => .cvtFp16Bf16
  | .fp16, .fp16 => .cvtFp16Fp16
  | .fp16, .e4m3fn => .cvtFp16E4m3fn
  | .fp16, .e4m3fnuz => .cvtFp16E4m3fnuz
  | .e4m3fn, .bf16 => .cvtE4m3fnBf16
  | .e4m3fn, .fp16 => .cvtE4m3fnFp16
  | .e4m3fn, .e4m3fn => .cvtE4m3fnE4m3fn
  | .e4m3fn, .e4m3fnuz => .cvtE4m3fnE4m3fnuz
  | .e4m3fnuz, .bf16 => .cvtE4m3fnuzBf16
  | .e4m3fnuz, .fp16 => .cvtE4m3fnuzFp16
  | .e4m3fnuz, .e4m3fn => .cvtE4m3fnuzE4m3fn
  | .e4m3fnuz, .e4m3fnuz => .cvtE4m3fnuzE4m3fnuz

/-- `CONST.<F>.<SEL>`; none for an infinity the format does not have (R67). -/
def constInstr : Fmt → Sel → Option Instr
  | .bf16, .minnorm => some .constBf16Minnorm
  | .bf16, .maxfin => some .constBf16Maxfin
  | .bf16, .eps => some .constBf16Eps
  | .bf16, .qnan => some .constBf16Qnan
  | .bf16, .pinf => some .constBf16Pinf
  | .bf16, .ninf => some .constBf16Ninf
  | .fp16, .minnorm => some .constFp16Minnorm
  | .fp16, .maxfin => some .constFp16Maxfin
  | .fp16, .eps => some .constFp16Eps
  | .fp16, .qnan => some .constFp16Qnan
  | .fp16, .pinf => some .constFp16Pinf
  | .fp16, .ninf => some .constFp16Ninf
  | .e4m3fn, .minnorm => some .constE4m3fnMinnorm
  | .e4m3fn, .maxfin => some .constE4m3fnMaxfin
  | .e4m3fn, .eps => some .constE4m3fnEps
  | .e4m3fn, .qnan => some .constE4m3fnQnan
  | .e4m3fn, .pinf => none
  | .e4m3fn, .ninf => none
  | .e4m3fnuz, .minnorm => some .constE4m3fnuzMinnorm
  | .e4m3fnuz, .maxfin => some .constE4m3fnuzMaxfin
  | .e4m3fnuz, .eps => some .constE4m3fnuzEps
  | .e4m3fnuz, .qnan => some .constE4m3fnuzQnan
  | .e4m3fnuz, .pinf => none
  | .e4m3fnuz, .ninf => none

/-- `SPECQ.<F>`. -/
def specqInstr : Fmt → Instr
  | .bf16 => .specqBf16
  | .fp16 => .specqFp16
  | .e4m3fn => .specqE4m3fn
  | .e4m3fnuz => .specqE4m3fnuz

/-- The instruction of a command's fields whose `FB` and `SEL` are not used (R63, R64). -/
def plainCommand (c : Fields) (i : Instr) : Except Reject Instr :=
  if c.fb ≠ 0 then .error .nonzeroFb
  else if c.sel ≠ 0 then .error .nonzeroSel
  else .ok i

/-- The CVT of a command's fields (R63). -/
def cvtCommand (c : Fields) (fa : Fmt) : Except Reject Instr :=
  if c.sel ≠ 0 then .error .nonzeroSel
  else match Fmt.ofCode c.fb with
    | some fb => .ok (cvtInstr fa fb)
    | none    => .error .reservedFormat

/-- The CONST of a command's fields (R64, R67). -/
def constCommand (c : Fields) (fa : Fmt) : Except Reject Instr :=
  if c.fb ≠ 0 then .error .nonzeroFb
  else match Sel.ofCode c.sel with
    | none => .error .reservedSel
    | some sel =>
      match constInstr fa sel with
      | some i => .ok i
      | none   => .error .noInfinity

/-- The instruction of a command's fields, or why there is none. -/
def Fields.decode (c : Fields) : Except Reject Instr :=
  if c.rsvd ≠ 0 then .error .nonzeroRsvd
  else match Op.ofCode c.op, Fmt.ofCode c.fa with
    | none, _             => .error .reservedOp
    | some _, none        => .error .reservedFormat
    | some .dec, some f   => plainCommand c (decInstr f)
    | some .enc, some f   => plainCommand c (encInstr f)
    | some .cvt, some f   => cvtCommand c f
    | some .const, some f => constCommand c f
    | some .specq, some f => plainCommand c (specqInstr f)

/-- The decoder of command words, total on all 2^32 (R68, R85). -/
def decode (cmd : Word) : Except Reject Instr := (Fields.ofWord cmd).decode

/-- The decoder of a platform's bytes in its byte order (R41, R86): the instruction and the bytes after it. -/
def decodeBytes (o : ByteOrder) : List Byte → Except Reject (Instr × List Byte)
  | b0 :: b1 :: b2 :: b3 :: rest =>
    match decode (bytesWord o b0 b1 b2 b3) with
    | .ok i    => .ok (i, rest)
    | .error r => .error r
  | _ => .error .truncated

/-- The command words of the opcode map (R87), transcribed. -/
def encode : Instr → Word
  | .decBf16 => 0x00000000#32
  | .decFp16 => 0x00000010#32
  | .decE4m3fn => 0x00000020#32
  | .decE4m3fnuz => 0x00000030#32
  | .encBf16 => 0x00000001#32
  | .encFp16 => 0x00000011#32
  | .encE4m3fn => 0x00000021#32
  | .encE4m3fnuz => 0x00000031#32
  | .cvtBf16Bf16 => 0x00000002#32
  | .cvtBf16Fp16 => 0x00000102#32
  | .cvtBf16E4m3fn => 0x00000202#32
  | .cvtBf16E4m3fnuz => 0x00000302#32
  | .cvtFp16Bf16 => 0x00000012#32
  | .cvtFp16Fp16 => 0x00000112#32
  | .cvtFp16E4m3fn => 0x00000212#32
  | .cvtFp16E4m3fnuz => 0x00000312#32
  | .cvtE4m3fnBf16 => 0x00000022#32
  | .cvtE4m3fnFp16 => 0x00000122#32
  | .cvtE4m3fnE4m3fn => 0x00000222#32
  | .cvtE4m3fnE4m3fnuz => 0x00000322#32
  | .cvtE4m3fnuzBf16 => 0x00000032#32
  | .cvtE4m3fnuzFp16 => 0x00000132#32
  | .cvtE4m3fnuzE4m3fn => 0x00000232#32
  | .cvtE4m3fnuzE4m3fnuz => 0x00000332#32
  | .constBf16Minnorm => 0x00000003#32
  | .constBf16Maxfin => 0x00001003#32
  | .constBf16Eps => 0x00002003#32
  | .constBf16Qnan => 0x00003003#32
  | .constBf16Pinf => 0x00004003#32
  | .constBf16Ninf => 0x00005003#32
  | .constFp16Minnorm => 0x00000013#32
  | .constFp16Maxfin => 0x00001013#32
  | .constFp16Eps => 0x00002013#32
  | .constFp16Qnan => 0x00003013#32
  | .constFp16Pinf => 0x00004013#32
  | .constFp16Ninf => 0x00005013#32
  | .constE4m3fnMinnorm => 0x00000023#32
  | .constE4m3fnMaxfin => 0x00001023#32
  | .constE4m3fnEps => 0x00002023#32
  | .constE4m3fnQnan => 0x00003023#32
  | .constE4m3fnuzMinnorm => 0x00000033#32
  | .constE4m3fnuzMaxfin => 0x00001033#32
  | .constE4m3fnuzEps => 0x00002033#32
  | .constE4m3fnuzQnan => 0x00003033#32
  | .specqBf16 => 0x00000004#32
  | .specqFp16 => 0x00000014#32
  | .specqE4m3fn => 0x00000024#32
  | .specqE4m3fnuz => 0x00000034#32

/-- The bytes a platform stores for an instruction (R41). -/
def encodeBytes (o : ByteOrder) (i : Instr) : List Byte := wordBytes o (encode i)

/-- The bytes that the platform of this implementation stores for a word (R8, R41; log 5). -/
def platformBytes (w : Word) : List Byte := wordBytes Config.platformByteOrder w

/-- The command the platform of this implementation reads from its bytes (R8, R41; log 5). -/
def decodePlatform (bs : List Byte) : Except Reject (Instr × List Byte) := decodeBytes Config.platformByteOrder bs

/-- The command word of a number's low `nbits` bits, bits above them zero; none if it does not fit in 32 bits (R86). -/
def tableWord (nbits w : Nat) : Option Word :=
  if w % 2 ^ nbits < 2 ^ 32 then some (BitVec.ofNat 32 (w % 2 ^ nbits)) else none

/-- The instruction the decoder reads from a row of the opcode table (bit 0 the least significant bit of the word). -/
def decodeTableWord (nbits w : Nat) : Option Instr :=
  match tableWord nbits w with
  | some cmd => (decode cmd).toOption
  | none     => none

end Sys2Proof
end

