-- ==== Sys2Proof/Machine/Canonical.lean ====
section
/-! DEFINITION. The canonical precision, IEEE binary32: its fields and classes (30_encoding.md R80) and the packing of an
exactly representable value (R81). -/

namespace Sys2Proof.Machine

/-- The classes of a binary32 word (R11, R80). `fin s sig q` is `(-1)^s × sig × 2^q` with `sig ≥ 1`. -/
inductive Canon where
  | nan  (s : Bool)
  | inf  (s : Bool)
  | zero (s : Bool)
  | fin  (s : Bool) (sig : Nat) (q : Int)
  deriving DecidableEq, Repr

/-- `w[31]` (R80). -/
def sign32 (w : Word) : Bool := decide (field w.toNat 31 31 = 1)

/-- `w[30:23]` (R80). -/
def exp32 (w : Word) : Nat := field w.toNat 30 23

/-- `w[22:0]` (R80). -/
def frac32 (w : Word) : Nat := field w.toNat 22 0

/-- `Unpack32` (R80): subnormals at their exact value, nothing flushed. -/
def unpack32 (w : Word) : Canon :=
  if exp32 w = 255 ∧ frac32 w ≠ 0 then .nan (sign32 w)
  else if exp32 w = 255 then .inf (sign32 w)
  else if exp32 w = 0 ∧ frac32 w = 0 then .zero (sign32 w)
  else if exp32 w = 0 then .fin (sign32 w) (frac32 w) (-149)
  else .fin (sign32 w) (2 ^ 23 + frac32 w) ((exp32 w : Int) - 150)

/-- `{s, e as 8 bits, m as 23 bits}` (R80). -/
def word32 (s : Bool) (e m : Nat) : Word :=
  BitVec.ofNat 32 (s.toNat * 2 ^ 31 + e % 2 ^ 8 * 2 ^ 23 + m % 2 ^ 23)

/-- What `Pack32` requires of its arguments (R81): `sig ≥ 1`, `k ≤ 127`, `p ≤ 23`, and `q ≥ -149` in the subnormal case. -/
def Pack32Ok (sig : Nat) (q : Int) : Prop :=
  1 ≤ sig ∧ bitlen sig - 1 ≤ 23 ∧ (bitlen sig - 1 : Nat) + q ≤ 127 ∧ ((bitlen sig - 1 : Nat) + q < -126 → -149 ≤ q)

/-- `Pack32(s, sig, q)` (R81), the binary32 word of `(-1)^s × sig × 2^q` where `Pack32Ok sig q`. -/
def pack32 (s : Bool) (sig : Nat) (q : Int) : Word :=
  let p := bitlen sig - 1
  let k : Int := p + q
  if -126 ≤ k then word32 s (k + 127).toNat (sig * 2 ^ (23 - p) - 2 ^ 23)
  else word32 s 0 (sig * 2 ^ (q + 149).toNat)

end Sys2Proof.Machine
end

