-- ==== Sys2Proof/Machine/Rounding.lean ====
section
/-! DEFINITION. The rounding of ENC: round to nearest, ties to even, on exact integers (42_encode.md R131), the packing of a
rounded magnitude (R132), and the comparison of two exact magnitudes. It is the only rounding mode (00_scope.md R7). -/

namespace Sys2Proof.Machine

/-- `RNE(sig, sh)`: `sig × 2^-sh` rounded to an integer, ties to even (R131). -/
def rne (sig : Nat) (sh : Int) : Nat :=
  if sh ≤ 0 then sig * 2 ^ (-sh).toNat
  else
    let d := 2 ^ sh.toNat
    let n0 := sig / d
    let rem := sig - n0 * d
    let half := 2 ^ (sh.toNat - 1)
    if half < rem ∨ (rem = half ∧ n0 % 2 = 1) then n0 + 1 else n0

/-- `sig × 2^q > sig' × 2^q'`, exactly: both scaled by the same power of two (R9, R130). -/
def magGt (sig : Nat) (q : Int) (sig' : Nat) (q' : Int) : Bool :=
  decide (sig' * 2 ^ (q' - min q q').toNat < sig * 2 ^ (q - min q q').toNat)

end Sys2Proof.Machine

namespace Sys2Proof

open Machine

/-- `PackN(F, s, n, t)`: the pattern of the rounded magnitude `n × 2^t` (R132). -/
def Fmt.packN (f : Fmt) (s : Bool) (n : Nat) (t : Int) : Nat :=
  if n < 2 ^ f.spec.m then f.pat s 0 n
  else f.pat s (t + f.spec.m + f.spec.bias).toNat (n - 2 ^ f.spec.m)

end Sys2Proof
end

