-- ==== Sys2Proof/Machine/Convert.lean ====
section
/-! DEFINITION. The pure functions behind the commands: DEC (41_decode.md R100), ENC (42_encode.md R130), CVT (43_convert.md
R170) and CONST (44_const_query.md R190). Each follows the pseudocode of its rule, in the rule's case order. -/

namespace Sys2Proof.Machine

/-- `DEC(F, b)` (R100): the binary32 word of a narrow pattern. NaN words as R106 says (log 15). -/
def dec (f : Fmt) (b : Nat) : Word :=
  let s := f.signOf b
  let e := f.expOf b
  let m := f.manOf b
  if f.spec.kind = .fnuz ∧ b = 2 ^ (f.spec.w - 1) then 0x7FC00000#32
  else if f.spec.kind = .fn ∧ e = ones f.spec.e ∧ m = ones f.spec.m then word32 s 0xFF (m * 2 ^ (23 - f.spec.m))
  else if f.spec.kind = .ieee ∧ e = ones f.spec.e then
    if m = 0 then word32 s 0xFF 0 else word32 s 0xFF (m * 2 ^ (23 - f.spec.m))
  else if e = 0 ∧ m = 0 then word32 s 0 0
  else if e = 0 then pack32 s m (1 - f.spec.bias - f.spec.m)
  else pack32 s (2 ^ f.spec.m + m) (e - f.spec.bias - f.spec.m)

/-- `t`, the exponent of the target's least significant bit for `sig × 2^q` (R138). -/
def targetExp (f : Fmt) (sig : Nat) (q : Int) : Int :=
  max ((bitlen sig - 1 : Nat) + q) f.emin - f.spec.m

/-- The last lines of ENC's pseudocode: the carry into the exponent, overflow to infinity, packing (R130, R132, R139). -/
def finishEnc (f : Fmt) (s : Bool) (n : Nat) (t : Int) : Nat :=
  if n = 0 then f.zero s
  else
    let n' := if n = 2 ^ (f.spec.m + 1) then 2 ^ f.spec.m else n
    let t' := if n = 2 ^ (f.spec.m + 1) then t + 1 else t
    if magGt n' t' f.maxSig f.maxExp then f.inf s else f.packN s n' t'

/-- ENC of a finite nonzero value `(-1)^s × sig × 2^q`: saturation before rounding for FN and FNUZ (R136), else the value
in the target frame (R138), rounded (R131). -/
def encFin (f : Fmt) (s : Bool) (sig : Nat) (q : Int) : Nat :=
  if f.spec.kind ≠ .ieee ∧ magGt sig q f.maxSig f.maxExp then f.sat s
  else finishEnc f s (rne sig (targetExp f sig q - q)) (targetExp f sig q)

/-- `ENC(F, a)` (R130): the narrow pattern of a binary32 word, NaN first (R133). -/
def enc (f : Fmt) (a : Word) : Nat :=
  match unpack32 a with
  | .nan _       => f.qnan
  | .inf s       => if f.spec.kind = .ieee then f.inf s else f.sat s
  | .zero s      => f.zero s
  | .fin s sig q => encFin f s sig q

/-- `CVT(FA, FB, b) = ENC(FB, DEC(FA, b))` (R170). -/
def cvt (fa fb : Fmt) (b : Nat) : Nat := enc fb (dec fa b)

/-- `CONST(F, SEL)` (R190). `EPS` is `2^-M` (log 15). -/
def const (f : Fmt) : Sel → Nat
  | .minnorm => f.pat false 1 0
  | .maxfin  => f.maxPat
  | .eps     => f.pat false (f.spec.bias - f.spec.m) 0
  | .qnan    => f.qnan
  | .pinf    => f.inf false
  | .ninf    => f.inf true

end Sys2Proof.Machine
end

