-- ==== Sys2Proof/Machine/Operands.lean ====
section
/-! DEFINITION. The operand forms of the commands (30_encoding.md R69, 41_decode.md R108). A command has no immediate and no
register: its one operand is the word `A` of its request, taken in one of three ways, and its result fills `D`. -/

namespace Sys2Proof.Machine

/-- `A[F.W-1:0]`, the narrow operand of DEC, CVT and SPECQ; the bits above are ignored (R69, R108). -/
def narrowOperand (f : Fmt) (a : Word) : Nat := a.toNat % 2 ^ f.spec.w

/-- `A`, the binary32 operand of ENC: all 32 bits (R69). -/
def wideOperand (a : Word) : Word := a

/-- `D = zext_32(r)`, the packing of a narrow result, of a constant and of SPECQ's three bits (R69). -/
def narrowResult (r : Nat) : Word := zext32 r

end Sys2Proof.Machine
end

