-- ==== Sys2Proof/Machine/State.lean ====
section
/-! DEFINITION. The state of the two agents (10_state.md R20): the FFC's `pending`, the signals of both channels in the
current clock cycle, the host's program and what it has received, and the open choices already fixed. All of it is plain
data. One step is one clock cycle (log 1). -/

namespace Sys2Proof.Machine

/-- A request `(CMD, A)` (00_scope.md R12, 10_state.md R23). -/
structure Request where
  cmd : Word
  a   : Word
  deriving DecidableEq, Repr

/-- A response `(D, ILL)` (00_scope.md R12). -/
structure Response where
  d   : Word
  ill : Bool
  deriving DecidableEq, Repr

/-- The state in one clock cycle. -/
structure State where
  /-- reset is asserted in this cycle (R240) -/
  rst      : Bool
  /-- the requests accepted and not yet answered, oldest first (R23) -/
  pending  : List Request
  /-- req_valid (R24), driven by the host -/
  reqValid : Bool
  /-- req_ready (R24), driven by the FFC -/
  reqReady : Bool
  /-- req_cmd (R24), driven by the host -/
  reqCmd   : Word
  /-- req_a (R24), driven by the host -/
  reqA     : Word
  /-- rsp_valid (R25), driven by the FFC -/
  rspValid : Bool
  /-- rsp_ready (R25), driven by the host -/
  rspReady : Bool
  /-- rsp_d (R25), driven by the FFC -/
  rspD     : Word
  /-- rsp_ill (R25), driven by the FFC -/
  rspIll   : Bool
  /-- the host has seen req_ready = 1 since the last reset (R243) -/
  booted   : Bool
  /-- the requests the host has yet to offer, in order: its program (R22) -/
  program  : List Request
  /-- the responses the host has taken, oldest first (R25, R13) -/
  received : List Response
  /-- the model's own: the open choices of the coming cycles that are already fixed, the next one first (log 2) -/
  sched    : List CycleChoice
  /-- the model's own: the number of the coming cycle, which free values are applied to (log 2, log 6) -/
  tick     : Nat
  deriving DecidableEq, Repr

/-- The faults of the model. The FFC itself stops on nothing: its one exception is a response (R210, R214). -/
inductive Fault where
  /-- raised by every meaning when it is asked to run while no request is pending, so that there is neither an operand nor
  a response to give. `step` never raises it. Safe: the model stops where the hardware has nothing to do (log 13). -/
  | noRequest
  deriving DecidableEq, Repr

/-- The refusals of the model. -/
inductive Refusal where
  /-- raised by `exec` for an instruction that has no meaning yet, by its mnemonic. Safe: the model stops. No arm raises it:
  every instruction has its meaning. -/
  | notModelled (mnemonic : String)
  deriving DecidableEq, Repr

/-- The state right after reset (R33, R240): the first cycle after release. `pending` is empty and rsp_valid is 0, as R33
says; req_ready is unspecified there, so it is a free choice; rsp_d, rsp_ill, req_cmd and req_a are free values (log 6,
log 7); the host drives neither req_valid nor rsp_ready yet and has no program (DESIGN CHOICE, log 8). -/
def State.reset : State where
  rst      := false
  pending  := []
  reqValid := false
  reqReady := (Config.freeCycle 0).ready
  reqCmd   := Config.freeReqCmd 0
  reqA     := Config.freeReqA 0
  rspValid := false
  rspReady := false
  rspD     := Config.freeRspD 0
  rspIll   := Config.freeRspIll 0
  booted   := false
  program  := []
  received := []
  sched    := []
  tick     := 1

end Sys2Proof.Machine
end

