-- ==== Sys2Proof/Machine/Ops.lean ====
section
/-! DEFINITION. The named operations on the state: the handshakes of the two channels (10_state.md R24 to R27), reset
(70_reset_and_hazards.md R240), the host's conduct (R26, R243), answering a request, and IllegalCommand (60_exceptions.md
R210). There is no memory, no register file and no trap return to operate on (R21, R40, R215). -/

namespace Sys2Proof.Machine

/-- The open choices of the coming cycle: fixed by `sched`, else free (log 2). -/
def State.choice (s : State) : CycleChoice :=
  match s.sched with
  | c :: _ => c
  | []     => Config.freeCycle s.tick

/-- The request on the request channel (R24). -/
def State.offered (s : State) : Request := ⟨s.reqCmd, s.reqA⟩

/-- The electrical level of the reset signal in this cycle, in the polarity of the implementation (R8, R240; log 4). -/
def State.resetLevel (s : State) : Bool := s.rst ^^ Config.resetStyle.activeLow

/-- The clock edge that ends this cycle accepts the offered request (R24); reset forbids it (R240). -/
def State.accepts (s : State) : Bool := !s.rst && s.reqValid && s.reqReady

/-- The clock edge that ends this cycle delivers the offered response (R25); reset forbids it (R240). -/
def State.delivers (s : State) : Bool := !s.rst && s.rspValid && s.rspReady

/-- `pending` after the edge (R27): delivery removes the head, acceptance appends to the tail. -/
def State.queued (s : State) : List Request :=
  (if s.delivers then s.pending.tail else s.pending) ++ (if s.accepts then [s.offered] else [])

/-- Reset is asserted on one side or the other of the edge. -/
def State.resetting (s : State) : Bool := s.rst || s.choice.reset

/-- `pending` in the coming cycle: reset discards every entry (R240). -/
def State.nextPending (s : State) : List Request := if s.resetting then [] else s.queued

/-- The host still holds an unaccepted request (R26); so it does through reset (log 9). -/
def State.holdsRequest (s : State) : Bool := s.reqValid && !s.accepts

/-- The host has released reset and seen req_ready = 1 since (R243). -/
def State.nextBooted (s : State) : Bool := !s.resetting && (s.booted || s.reqReady)

/-- The request the host newly raises in the coming cycle, if any: the next of its program (R22, R24, R243). -/
def State.raised (s : State) : Option Request :=
  if !s.holdsRequest && s.nextBooted && s.choice.offer then s.program.head? else none

/-- The request channel in the coming cycle, as the host drives it: held (R26), newly raised, or idle. -/
def State.nextRequest (s : State) : Option Request := if s.holdsRequest then some s.offered else s.raised

/-- The program after the host took the request it raised off it (R22). -/
def State.nextProgram (s : State) : List Request := if s.raised.isSome then s.program.tail else s.program

/-- req_ready in the coming cycle (R26, R240): 0 in reset, 0 at full depth, else open. -/
def State.nextReqReady (s : State) : Bool :=
  !s.choice.reset && decide (s.nextPending.length < Config.maxOutstanding) && s.choice.ready

/-- A response offered and not delivered stays offered (R26), unless reset is asserted (R240). -/
def State.holdsResponse (s : State) : Bool := s.rspValid && !s.delivers && !s.resetting

/-- The responses the host holds after the edge (R25). -/
def State.nextReceived (s : State) : List Response :=
  if s.delivers then s.received ++ [⟨s.rspD, s.rspIll⟩] else s.received

/-- The coming cycle, but for a response newly offered in it: both channels after the clock edge, `pending`, and the
host's signals. -/
def State.advance (s : State) : State where
  rst      := s.choice.reset
  pending  := s.nextPending
  reqValid := s.nextRequest.isSome
  reqReady := s.nextReqReady
  reqCmd   := match s.nextRequest with | some r => r.cmd | none => Config.freeReqCmd s.tick
  reqA     := match s.nextRequest with | some r => r.a | none => Config.freeReqA s.tick
  rspValid := s.holdsResponse
  rspReady := s.choice.rspReady
  rspD     := if s.holdsResponse then s.rspD else Config.freeRspD s.tick
  rspIll   := if s.holdsResponse then s.rspIll else Config.freeRspIll s.tick
  booted   := s.nextBooted
  program  := s.nextProgram
  received := s.nextReceived
  sched    := s.sched.tail
  tick     := s.tick + 1

/-- The FFC starts to answer the head of `pending` in the coming cycle: none is being offered still, and the open latency
says so (R26, R246; log 2). -/
def State.answers (s : State) : Bool := !s.resetting && !s.holdsResponse && s.choice.respond

/-- `respond(d)` (00_scope.md R12): the response `(D = d, ILL = 0)` is offered on the response channel (R25). -/
def State.respond (s : State) (d : Word) : State := { s with rspValid := true, rspD := d, rspIll := false }

/-- `raise IllegalCommand` (00_scope.md R12, 60_exceptions.md R210), the one exception: the response `(D = 0, ILL = 1)` is
offered and nothing else changes. It saves no state and transfers control nowhere (R214), and there is no return (R215). -/
def State.raiseIllegal (s : State) : State := { s with rspValid := true, rspD := 0, rspIll := true }

/-- Answer the head of `pending` with `result A`, where `A` is its operand word. The head stays in `pending` until its
response is delivered (R27). Without a request there is nothing to answer (log 13). -/
def answer (result : Word → Word) (s : State) : Host.Outcome State Fault Refusal :=
  match s.pending with
  | r :: _ => .next (s.respond (result r.a))
  | []     => .fault .noRequest

end Sys2Proof.Machine
end

