-- ==== Sys2Proof/Machine/Const.lean ====
section
/-! DEFINITION. The meanings of CONST.<F>.<SEL> (44_const_query.md R190 to R194): `D = zext_32(CONST(F, SEL))`; `A` is ignored (R69). -/

namespace Sys2Proof.Machine

/-- `CONST.BF16.MINNORM` (R191). -/
def execConstBf16Minnorm (s : State) : Host.Outcome State Fault Refusal :=
  answer (fun _ => narrowResult (const .bf16 .minnorm)) s

/-- `CONST.BF16.MAXFIN` (R191). -/
def execConstBf16Maxfin (s : State) : Host.Outcome State Fault Refusal :=
  answer (fun _ => narrowResult (const .bf16 .maxfin)) s

/-- `CONST.BF16.EPS` (R191). -/
def execConstBf16Eps (s : State) : Host.Outcome State Fault Refusal :=
  answer (fun _ => narrowResult (const .bf16 .eps)) s

/-- `CONST.BF16.QNAN` (R191). -/
def execConstBf16Qnan (s : State) : Host.Outcome State Fault Refusal :=
  answer (fun _ => narrowResult (const .bf16 .qnan)) s

/-- `CONST.BF16.PINF` (R191). -/
def execConstBf16Pinf (s : State) : Host.Outcome State Fault Refusal :=
  answer (fun _ => narrowResult (const .bf16 .pinf)) s

/-- `CONST.BF16.NINF` (R191). -/
def execConstBf16Ninf (s : State) : Host.Outcome State Fault Refusal :=
  answer (fun _ => narrowResult (const .bf16 .ninf)) s

/-- `CONST.FP16.MINNORM` (R192). -/
def execConstFp16Minnorm (s : State) : Host.Outcome State Fault Refusal :=
  answer (fun _ => narrowResult (const .fp16 .minnorm)) s

/-- `CONST.FP16.MAXFIN` (R192). -/
def execConstFp16Maxfin (s : State) : Host.Outcome State Fault Refusal :=
  answer (fun _ => narrowResult (const .fp16 .maxfin)) s

/-- `CONST.FP16.EPS` (R192). -/
def execConstFp16Eps (s : State) : Host.Outcome State Fault Refusal :=
  answer (fun _ => narrowResult (const .fp16 .eps)) s

/-- `CONST.FP16.QNAN` (R192). -/
def execConstFp16Qnan (s : State) : Host.Outcome State Fault Refusal :=
  answer (fun _ => narrowResult (const .fp16 .qnan)) s

/-- `CONST.FP16.PINF` (R192). -/
def execConstFp16Pinf (s : State) : Host.Outcome State Fault Refusal :=
  answer (fun _ => narrowResult (const .fp16 .pinf)) s

/-- `CONST.FP16.NINF` (R192). -/
def execConstFp16Ninf (s : State) : Host.Outcome State Fault Refusal :=
  answer (fun _ => narrowResult (const .fp16 .ninf)) s

/-- `CONST.E4M3FN.MINNORM` (R193). -/
def execConstE4m3fnMinnorm (s : State) : Host.Outcome State Fault Refusal :=
  answer (fun _ => narrowResult (const .e4m3fn .minnorm)) s

/-- `CONST.E4M3FN.MAXFIN` (R193). -/
def execConstE4m3fnMaxfin (s : State) : Host.Outcome State Fault Refusal :=
  answer (fun _ => narrowResult (const .e4m3fn .maxfin)) s

/-- `CONST.E4M3FN.EPS` (R193). -/
def execConstE4m3fnEps (s : State) : Host.Outcome State Fault Refusal :=
  answer (fun _ => narrowResult (const .e4m3fn .eps)) s

/-- `CONST.E4M3FN.QNAN` (R193). -/
def execConstE4m3fnQnan (s : State) : Host.Outcome State Fault Refusal :=
  answer (fun _ => narrowResult (const .e4m3fn .qnan)) s

/-- `CONST.E4M3FNUZ.MINNORM` (R194). -/
def execConstE4m3fnuzMinnorm (s : State) : Host.Outcome State Fault Refusal :=
  answer (fun _ => narrowResult (const .e4m3fnuz .minnorm)) s

/-- `CONST.E4M3FNUZ.MAXFIN` (R194). -/
def execConstE4m3fnuzMaxfin (s : State) : Host.Outcome State Fault Refusal :=
  answer (fun _ => narrowResult (const .e4m3fnuz .maxfin)) s

/-- `CONST.E4M3FNUZ.EPS` (R194). -/
def execConstE4m3fnuzEps (s : State) : Host.Outcome State Fault Refusal :=
  answer (fun _ => narrowResult (const .e4m3fnuz .eps)) s

/-- `CONST.E4M3FNUZ.QNAN` (R194). -/
def execConstE4m3fnuzQnan (s : State) : Host.Outcome State Fault Refusal :=
  answer (fun _ => narrowResult (const .e4m3fnuz .qnan)) s

end Sys2Proof.Machine
end

