-- ==== Sys2Proof/Machine/Cvt.lean ====
section
/-! DEFINITION. The meanings of CVT.<FA>.<FB> (43_convert.md R170 to R186): `D = zext_32(CVT(FA, FB, A[FA.W-1:0]))`. -/

namespace Sys2Proof.Machine

/-- `CVT.BF16.BF16` (R171). -/
def execCvtBf16Bf16 (s : State) : Host.Outcome State Fault Refusal :=
  answer (fun a => narrowResult (cvt .bf16 .bf16 (narrowOperand .bf16 a))) s

/-- `CVT.BF16.FP16` (R172). -/
def execCvtBf16Fp16 (s : State) : Host.Outcome State Fault Refusal :=
  answer (fun a => narrowResult (cvt .bf16 .fp16 (narrowOperand .bf16 a))) s

/-- `CVT.BF16.E4M3FN` (R173). -/
def execCvtBf16E4m3fn (s : State) : Host.Outcome State Fault Refusal :=
  answer (fun a => narrowResult (cvt .bf16 .e4m3fn (narrowOperand .bf16 a))) s

/-- `CVT.BF16.E4M3FNUZ` (R174). -/
def execCvtBf16E4m3fnuz (s : State) : Host.Outcome State Fault Refusal :=
  answer (fun a => narrowResult (cvt .bf16 .e4m3fnuz (narrowOperand .bf16 a))) s

/-- `CVT.FP16.BF16` (R175). -/
def execCvtFp16Bf16 (s : State) : Host.Outcome State Fault Refusal :=
  answer (fun a => narrowResult (cvt .fp16 .bf16 (narrowOperand .fp16 a))) s

/-- `CVT.FP16.FP16` (R176). -/
def execCvtFp16Fp16 (s : State) : Host.Outcome State Fault Refusal :=
  answer (fun a => narrowResult (cvt .fp16 .fp16 (narrowOperand .fp16 a))) s

/-- `CVT.FP16.E4M3FN` (R177). -/
def execCvtFp16E4m3fn (s : State) : Host.Outcome State Fault Refusal :=
  answer (fun a => narrowResult (cvt .fp16 .e4m3fn (narrowOperand .fp16 a))) s

/-- `CVT.FP16.E4M3FNUZ` (R178). -/
def execCvtFp16E4m3fnuz (s : State) : Host.Outcome State Fault Refusal :=
  answer (fun a => narrowResult (cvt .fp16 .e4m3fnuz (narrowOperand .fp16 a))) s

/-- `CVT.E4M3FN.BF16` (R179). -/
def execCvtE4m3fnBf16 (s : State) : Host.Outcome State Fault Refusal :=
  answer (fun a => narrowResult (cvt .e4m3fn .bf16 (narrowOperand .e4m3fn a))) s

/-- `CVT.E4M3FN.FP16` (R180). -/
def execCvtE4m3fnFp16 (s : State) : Host.Outcome State Fault Refusal :=
  answer (fun a => narrowResult (cvt .e4m3fn .fp16 (narrowOperand .e4m3fn a))) s

/-- `CVT.E4M3FN.E4M3FN` (R181). -/
def execCvtE4m3fnE4m3fn (s : State) : Host.Outcome State Fault Refusal :=
  answer (fun a => narrowResult (cvt .e4m3fn .e4m3fn (narrowOperand .e4m3fn a))) s

/-- `CVT.E4M3FN.E4M3FNUZ` (R182). -/
def execCvtE4m3fnE4m3fnuz (s : State) : Host.Outcome State Fault Refusal :=
  answer (fun a => narrowResult (cvt .e4m3fn .e4m3fnuz (narrowOperand .e4m3fn a))) s

/-- `CVT.E4M3FNUZ.BF16` (R183). -/
def execCvtE4m3fnuzBf16 (s : State) : Host.Outcome State Fault Refusal :=
  answer (fun a => narrowResult (cvt .e4m3fnuz .bf16 (narrowOperand .e4m3fnuz a))) s

/-- `CVT.E4M3FNUZ.FP16` (R184). -/
def execCvtE4m3fnuzFp16 (s : State) : Host.Outcome State Fault Refusal :=
  answer (fun a => narrowResult (cvt .e4m3fnuz .fp16 (narrowOperand .e4m3fnuz a))) s

/-- `CVT.E4M3FNUZ.E4M3FN` (R185). -/
def execCvtE4m3fnuzE4m3fn (s : State) : Host.Outcome State Fault Refusal :=
  answer (fun a => narrowResult (cvt .e4m3fnuz .e4m3fn (narrowOperand .e4m3fnuz a))) s

/-- `CVT.E4M3FNUZ.E4M3FNUZ` (R186). -/
def execCvtE4m3fnuzE4m3fnuz (s : State) : Host.Outcome State Fault Refusal :=
  answer (fun a => narrowResult (cvt .e4m3fnuz .e4m3fnuz (narrowOperand .e4m3fnuz a))) s

end Sys2Proof.Machine
end

