-- ==== Sys2Proof/Machine/Dec.lean ====
section
/-! DEFINITION. The meanings of DEC.<F> (41_decode.md R100 to R104): `D = DEC(F, A[W-1:0])`, in all 32 bits (R69). -/

namespace Sys2Proof.Machine

/-- `DEC.BF16` (R101). -/
def execDecBf16 (s : State) : Host.Outcome State Fault Refusal :=
  answer (fun a => dec .bf16 (narrowOperand .bf16 a)) s

/-- `DEC.FP16` (R102). -/
def execDecFp16 (s : State) : Host.Outcome State Fault Refusal :=
  answer (fun a => dec .fp16 (narrowOperand .fp16 a)) s

/-- `DEC.E4M3FN` (R103). -/
def execDecE4m3fn (s : State) : Host.Outcome State Fault Refusal :=
  answer (fun a => dec .e4m3fn (narrowOperand .e4m3fn a)) s

/-- `DEC.E4M3FNUZ` (R104). -/
def execDecE4m3fnuz (s : State) : Host.Outcome State Fault Refusal :=
  answer (fun a => dec .e4m3fnuz (narrowOperand .e4m3fnuz a)) s

end Sys2Proof.Machine
end

