-- ==== Sys2Proof/Machine/Enc.lean ====
section
/-! DEFINITION. The meanings of ENC.<F> (42_encode.md R130, R140 to R143): `D = zext_32(ENC(F, A))`. -/

namespace Sys2Proof.Machine

/-- `ENC.BF16` (R140). -/
def execEncBf16 (s : State) : Host.Outcome State Fault Refusal :=
  answer (fun a => narrowResult (enc .bf16 (wideOperand a))) s

/-- `ENC.FP16` (R141). -/
def execEncFp16 (s : State) : Host.Outcome State Fault Refusal :=
  answer (fun a => narrowResult (enc .fp16 (wideOperand a))) s

/-- `ENC.E4M3FN` (R142). -/
def execEncE4m3fn (s : State) : Host.Outcome State Fault Refusal :=
  answer (fun a => narrowResult (enc .e4m3fn (wideOperand a))) s

/-- `ENC.E4M3FNUZ` (R143). -/
def execEncE4m3fnuz (s : State) : Host.Outcome State Fault Refusal :=
  answer (fun a => narrowResult (enc .e4m3fnuz (wideOperand a))) s

end Sys2Proof.Machine
end

