-- ==== Sys2Proof/Machine/Flags.lean ====
section
/-! DEFINITION. The FFC has no flags, condition codes or sticky status (10_state.md R29, 00_scope.md R17): no instruction reads
or writes one. The only bits computed about a value are the three FormatSpec predicates that SPECQ returns in `D[2:0]`
(44_const_query.md R200). -/

namespace Sys2Proof.Machine

/-- `isInfinityRepresentable(F)` (R200). -/
def isInfinityRepresentable (f : Fmt) : Bool := decide (f.spec.kind = .ieee)

/-- `isSpecialExponent(F, e)` (R200). -/
def isSpecialExponent (f : Fmt) (e : Nat) : Bool := decide (f.spec.kind = .ieee ∧ e = ones f.spec.e)

/-- `isNaNPattern(F, b)` (R200). -/
def isNaNPattern (f : Fmt) (b : Nat) : Bool :=
  match f.spec.kind with
  | .ieee => decide (f.expOf b = ones f.spec.e ∧ f.manOf b ≠ 0)
  | .fn   => decide (f.expOf b = ones f.spec.e ∧ f.manOf b = ones f.spec.m)
  | .fnuz => decide (b = 2 ^ (f.spec.w - 1))

/-- `{isInfinityRepresentable(F), isSpecialExponent(F, e), isNaNPattern(F, b)}` (R200). -/
def specq (f : Fmt) (b : Nat) : Nat :=
  (isInfinityRepresentable f).toNat * 4 + (isSpecialExponent f (f.expOf b)).toNat * 2 + (isNaNPattern f b).toNat

end Sys2Proof.Machine
end

