-- ==== Sys2Proof/Machine/Specq.lean ====
section
/-! DEFINITION. The meanings of SPECQ.<F> (44_const_query.md R200 to R204): `D = zext_32({isInf, isSpecExp, isNaN})`. -/

namespace Sys2Proof.Machine

/-- `SPECQ.BF16` (R201). -/
def execSpecqBf16 (s : State) : Host.Outcome State Fault Refusal :=
  answer (fun a => narrowResult (specq .bf16 (narrowOperand .bf16 a))) s

/-- `SPECQ.FP16` (R202). -/
def execSpecqFp16 (s : State) : Host.Outcome State Fault Refusal :=
  answer (fun a => narrowResult (specq .fp16 (narrowOperand .fp16 a))) s

/-- `SPECQ.E4M3FN` (R203). -/
def execSpecqE4m3fn (s : State) : Host.Outcome State Fault Refusal :=
  answer (fun a => narrowResult (specq .e4m3fn (narrowOperand .e4m3fn a))) s

/-- `SPECQ.E4M3FNUZ` (R204). -/
def execSpecqE4m3fnuz (s : State) : Host.Outcome State Fault Refusal :=
  answer (fun a => narrowResult (specq .e4m3fnuz (narrowOperand .e4m3fnuz a))) s

end Sys2Proof.Machine
end

