-- ==== Sys2Proof/Machine/Dispatch.lean ====
section
/-! DEFINITION. One arm per instruction (10_state.md R28). -/

namespace Sys2Proof.Machine

def exec (i : Instr) (s : State) : Host.Outcome State Fault Refusal :=
  match i with
  -- DEC
  | .decBf16 => Sys2Proof.Machine.execDecBf16 s
  | .decFp16 => Sys2Proof.Machine.execDecFp16 s
  | .decE4m3fn => Sys2Proof.Machine.execDecE4m3fn s
  | .decE4m3fnuz => Sys2Proof.Machine.execDecE4m3fnuz s
  -- ENC
  | .encBf16 => Sys2Proof.Machine.execEncBf16 s
  | .encFp16 => Sys2Proof.Machine.execEncFp16 s
  | .encE4m3fn => Sys2Proof.Machine.execEncE4m3fn s
  | .encE4m3fnuz => Sys2Proof.Machine.execEncE4m3fnuz s
  -- CVT
  | .cvtBf16Bf16 => Sys2Proof.Machine.execCvtBf16Bf16 s
  | .cvtBf16Fp16 => Sys2Proof.Machine.execCvtBf16Fp16 s
  | .cvtBf16E4m3fn => Sys2Proof.Machine.execCvtBf16E4m3fn s
  | .cvtBf16E4m3fnuz => Sys2Proof.Machine.execCvtBf16E4m3fnuz s
  | .cvtFp16Bf16 => Sys2Proof.Machine.execCvtFp16Bf16 s
  | .cvtFp16Fp16 => Sys2Proof.Machine.execCvtFp16Fp16 s
  | .cvtFp16E4m3fn => Sys2Proof.Machine.execCvtFp16E4m3fn s
  | .cvtFp16E4m3fnuz => Sys2Proof.Machine.execCvtFp16E4m3fnuz s
  | .cvtE4m3fnBf16 => Sys2Proof.Machine.execCvtE4m3fnBf16 s
  | .cvtE4m3fnFp16 => Sys2Proof.Machine.execCvtE4m3fnFp16 s
  | .cvtE4m3fnE4m3fn => Sys2Proof.Machine.execCvtE4m3fnE4m3fn s
  | .cvtE4m3fnE4m3fnuz => Sys2Proof.Machine.execCvtE4m3fnE4m3fnuz s
  | .cvtE4m3fnuzBf16 => Sys2Proof.Machine.execCvtE4m3fnuzBf16 s
  | .cvtE4m3fnuzFp16 => Sys2Proof.Machine.execCvtE4m3fnuzFp16 s
  | .cvtE4m3fnuzE4m3fn => Sys2Proof.Machine.execCvtE4m3fnuzE4m3fn s
  | .cvtE4m3fnuzE4m3fnuz => Sys2Proof.Machine.execCvtE4m3fnuzE4m3fnuz s
  -- CONST
  | .constBf16Minnorm => Sys2Proof.Machine.execConstBf16Minnorm s
  | .constBf16Maxfin => Sys2Proof.Machine.execConstBf16Maxfin s
  | .constBf16Eps => Sys2Proof.Machine.execConstBf16Eps s
  | .constBf16Qnan => Sys2Proof.Machine.execConstBf16Qnan s
  | .constBf16Pinf => Sys2Proof.Machine.execConstBf16Pinf s
  | .constBf16Ninf => Sys2Proof.Machine.execConstBf16Ninf s
  | .constFp16Minnorm => Sys2Proof.Machine.execConstFp16Minnorm s
  | .constFp16Maxfin => Sys2Proof.Machine.execConstFp16Maxfin s
  | .constFp16Eps => Sys2Proof.Machine.execConstFp16Eps s
  | .constFp16Qnan => Sys2Proof.Machine.execConstFp16Qnan s
  | .constFp16Pinf => Sys2Proof.Machine.execConstFp16Pinf s
  | .constFp16Ninf => Sys2Proof.Machine.execConstFp16Ninf s
  | .constE4m3fnMinnorm => Sys2Proof.Machine.execConstE4m3fnMinnorm s
  | .constE4m3fnMaxfin => Sys2Proof.Machine.execConstE4m3fnMaxfin s
  | .constE4m3fnEps => Sys2Proof.Machine.execConstE4m3fnEps s
  | .constE4m3fnQnan => Sys2Proof.Machine.execConstE4m3fnQnan s
  | .constE4m3fnuzMinnorm => Sys2Proof.Machine.execConstE4m3fnuzMinnorm s
  | .constE4m3fnuzMaxfin => Sys2Proof.Machine.execConstE4m3fnuzMaxfin s
  | .constE4m3fnuzEps => Sys2Proof.Machine.execConstE4m3fnuzEps s
  | .constE4m3fnuzQnan => Sys2Proof.Machine.execConstE4m3fnuzQnan s
  -- SPECQ
  | .specqBf16 => Sys2Proof.Machine.execSpecqBf16 s
  | .specqFp16 => Sys2Proof.Machine.execSpecqFp16 s
  | .specqE4m3fn => Sys2Proof.Machine.execSpecqE4m3fn s
  | .specqE4m3fnuz => Sys2Proof.Machine.execSpecqE4m3fnuz s

end Sys2Proof.Machine
end

