-- ==== Sys2Proof/Machine/Fetch.lean ====
section
/-! DEFINITION. Executing the head of `pending`: its command word is decoded (30_encoding.md R85) and run, or answered with
IllegalCommand (60_exceptions.md R210, R212). The FFC fetches nothing: a command word arrives in its request (10_state.md
R22). -/

namespace Sys2Proof.Machine

/-- Run the command word `cmd` of the head of `pending`: the legality test first (R212). -/
def runCommand (cmd : Word) (s : State) : Host.Outcome State Fault Refusal :=
  match decode cmd with
  | .ok i    => exec i s
  | .error _ => .next s.raiseIllegal

/-- Run the oldest pending request, if there is one. -/
def runHead (s : State) : Host.Outcome State Fault Refusal :=
  match s.pending with
  | r :: _ => runCommand r.cmd s
  | []     => .next s

/-- The operand word that a command word placed at the head of `pending` runs on: that of the request it takes the place
of, 0 if there is none. -/
def State.headOperand (s : State) : Word :=
  match s.pending with
  | r :: _ => r.a
  | []     => 0

/-- A request placed at the head of `pending`, and the next cycle made one that answers it. -/
def State.place (s : State) (cmd : Word) : State :=
  { s with
    rst      := false
    rspValid := false
    pending  := ⟨cmd, s.headOperand⟩ :: s.pending.tail
    sched    := { s.choice with reset := false, respond := true } :: s.sched.tail }

end Sys2Proof.Machine
end

