-- ==== Sys2Proof/Machine/Step.lean ====
section
/-! DEFINITION. The step: one clock cycle (log 1). The clock edge moves requests and responses over the two channels
(10_state.md R24 to R27), and in the coming cycle the FFC may offer the response of the oldest pending request. -/

namespace Sys2Proof.Machine

/-- One clock cycle. When the FFC starts to answer, the head of `pending` is decoded and run on the advanced state. -/
def step (s : State) : Host.Outcome State Fault Refusal :=
  if s.answers then runHead s.advance else .next s.advance

/-- `s` with the table's word placed where the next step runs it: at the head of `pending`, nothing being offered, reset
not asserted, and the next cycle's open choices saying that the FFC answers (log 16). A number of more than 32 bits is no
command word; its low 32 bits stand for it. -/
def State.withFetchWord (s : State) (nbits w : Nat) : State :=
  s.place (BitVec.ofNat 32 (w % 2 ^ nbits))

end Sys2Proof.Machine
end

