-- ==== Sys2Proof/Machine/Response.lean ====
section
/-! DEFINITION. `Exec(CMD, A)` as 10_state.md R28 writes it: one total function of the request, by the fields of its command
word. The machine does not call it: step decodes the word to an instruction and runs that instruction's own meaning, and
the two are stated to agree. -/

namespace Sys2Proof.Machine

/-- The result word of a legal command, by its operation and fields (R28). -/
def resultOf (op : Op) (fa fb : Fmt) (sel : Sel) (a : Word) : Word :=
  match op with
  | .dec   => dec fa (narrowOperand fa a)
  | .enc   => narrowResult (enc fa (wideOperand a))
  | .cvt   => narrowResult (cvt fa fb (narrowOperand fa a))
  | .const => narrowResult (const fa sel)
  | .specq => narrowResult (specq fa (narrowOperand fa a))

/-- `Exec(CMD, A)` (R28): IllegalCommand for an illegal word, else the command's result. Where the word is legal, `OP`, `FA`
and the fields its operation uses are legal codes, and `FB` and `SEL` are 0 where unused (R63, R64). -/
def execRequest (r : Request) : Response :=
  let c := Fields.ofWord r.cmd
  if legal r.cmd then
    match Op.ofCode c.op, Fmt.ofCode c.fa, Fmt.ofCode c.fb, Sel.ofCode c.sel with
    | some op, some fa, some fb, some sel => ⟨resultOf op fa fb sel r.a, false⟩
    | _, _, _, _ => ⟨0, true⟩
  else ⟨0, true⟩

end Sys2Proof.Machine
end

