-- ==== Sys2Proof/Safety.lean ====
section
/-! DEFINITION. The terms in which claims are stated: exact values of words and patterns, what it is for an instruction to
answer, the invariant of the machine, and the order in which requests come to be answered. Nothing in the machine uses
this file. -/

namespace Sys2Proof.Machine

/-! ### Values -/

/-- `(-1)^s`, with the sign bit `s` (00_scope.md R11). -/
def signum (s : Bool) : ℚ := if s then -1 else 1

/-- The exact value of a class of binary32 words, for zeros and finite words (R11). -/
def Canon.value : Canon → Option ℚ
  | .nan _       => none
  | .inf _       => none
  | .zero _      => some 0
  | .fin s sig q => some (signum s * sig * 2 ^ q)

/-- The exact value of a finite binary32 word; none for infinities and NaN (30_encoding.md R80). -/
def value32 (w : Word) : Option ℚ := (unpack32 w).value

/-- The word is a binary32 NaN (R80). -/
def isNaN32 (w : Word) : Bool := decide (exp32 w = 255 ∧ frac32 w ≠ 0)

/-- The word is a binary32 infinity (R80). -/
def isInf32 (w : Word) : Bool := decide (exp32 w = 255 ∧ frac32 w = 0)

/-- The value of a binary32 word in the order of the extended rationals; none for NaN. -/
def extended32 (w : Word) : Option (WithBot (WithTop ℚ)) :=
  match unpack32 w with
  | .nan _       => none
  | .inf false   => some ((⊤ : WithTop ℚ) : WithBot (WithTop ℚ))
  | .inf true    => some ⊥
  | .zero _      => some (((0 : ℚ) : WithTop ℚ) : WithBot (WithTop ℚ))
  | .fin s sig q => some (((signum s * sig * 2 ^ q : ℚ) : WithTop ℚ) : WithBot (WithTop ℚ))

/-- The pattern is an infinity of an IEEE kind (30_encoding.md R72, R73). -/
def isInfPattern (f : Fmt) (b : Nat) : Bool :=
  decide (f.spec.kind = .ieee ∧ f.expOf b = ones f.spec.e ∧ f.manOf b = 0)

/-- The value of a finite narrow pattern by the source's formula, quoted in 41_decode.md R100: a zero exponent field gives
`mantissa/2^M × 2^(1-bias)`, else the value is `(1 + mantissa/2^M) × 2^(exponent - bias)`, times the sign. -/
def patValue (f : Fmt) (b : Nat) : Option ℚ :=
  if isNaNPattern f b || isInfPattern f b then none
  else if f.expOf b = 0 then
    some (signum (f.signOf b) * ((f.manOf b : ℚ) / 2 ^ f.spec.m * 2 ^ (1 - f.spec.bias : Int)))
  else
    some (signum (f.signOf b) * ((1 + (f.manOf b : ℚ) / 2 ^ f.spec.m) * 2 ^ (f.expOf b - f.spec.bias : Int)))

/-- `MAXF(F)` as a value (30_encoding.md R77). -/
def maxValue (f : Fmt) : ℚ := f.maxSig * 2 ^ f.maxExp

/-- Half the smallest subnormal, `2^(emin(F) - M - 1)`, as 42_encode.md R144 lists it. -/
def underflowBound : Fmt → ℚ
  | .bf16     => 1 / 2 ^ 134
  | .fp16     => 1 / 2 ^ 25
  | .e4m3fn   => 1 / 2 ^ 10
  | .e4m3fnuz => 1 / 2 ^ 11

/-- The magnitudes that an encoding of an IEEE kind takes to infinity start here, as 42_encode.md R139 lists it; the other
formats have no infinity. -/
def overflowBound : Fmt → Option ℚ
  | .bf16     => some (2 ^ 128 - 2 ^ 119)
  | .fp16     => some 65520
  | .e4m3fn   => none
  | .e4m3fnuz => none

/-- The magnitude rounds into the format's finite range: below the overflow threshold of an IEEE kind (R139), at most
`MAXF(F)` for the others (R136). -/
def InRange (f : Fmt) (v : ℚ) : Prop :=
  match overflowBound f with
  | some bound => |v| < bound
  | none       => |v| ≤ maxValue f

/-- ENC with its overflow test after rounding in every format, the other order of 42_encode.md R146. -/
def encTestedAfterRounding (f : Fmt) (a : Word) : Nat :=
  match unpack32 a with
  | .nan _       => f.qnan
  | .inf s       => if f.spec.kind = .ieee then f.inf s else f.sat s
  | .zero s      => f.zero s
  | .fin s sig q =>
    let n := rne sig (targetExp f sig q - q)
    if magGt n (targetExp f sig q) f.maxSig f.maxExp then
      if f.spec.kind = .ieee then f.inf s else f.sat s
    else finishEnc f s n (targetExp f sig q)

/-! ### Answering -/

/-- From every state with a pending request, `i` completes: it answers the oldest request with `D = result A`, `ILL = 0`, and
changes nothing else of the state. -/
def Answers (i : Instr) (result : Word → Word) : Prop :=
  ∀ (s : State) (r : Request) (rest : List Request), s.pending = r :: rest →
    exec i s = .next { s with rspValid := true, rspD := result r.a, rspIll := false }

/-! ### The invariant -/

/-- What holds in every cycle: the depth (10_state.md R23), req_ready only with capacity left (R26), a quiet machine in reset
(R33, R240), and an offered response that is `Exec` of the oldest pending request (R27, R28). -/
structure State.Inv (s : State) : Prop where
  depth    : s.pending.length ≤ Config.maxOutstanding
  room     : s.reqReady = true → s.pending.length < Config.maxOutstanding
  quiet    : s.rst = true → s.pending = [] ∧ s.reqReady = false ∧ s.rspValid = false ∧ s.booted = false
  answered : s.rspValid = true → ∃ r rest, s.pending = r :: rest ∧ (⟨s.rspD, s.rspIll⟩ : Response) = execRequest r

/-! ### Runs -/

/-- `n` steps of the machine (Host/Core.lean), stopping at a fault or a refusal. -/
def run (n : Nat) (s : State) : Host.Outcome State Fault Refusal := Host.Core.run Sys2Proof.core n s

/-- The open choices of the `k`-th cycle from now (log 2). -/
def State.choiceAt (s : State) (k : Nat) : CycleChoice :=
  match s.sched[k]? with
  | some c => c
  | none   => Config.freeCycle (s.tick + k)

/-- Reset is not asserted now nor in the next `n` cycles. -/
def State.NoReset (s : State) (n : Nat) : Prop := s.rst = false ∧ ∀ k < n, (s.choiceAt k).reset = false

/-- The request on the request channel, if one is offered (10_state.md R24). -/
def State.onChannel (s : State) : List Request := if s.reqValid then [s.offered] else []

/-- The requests the host has still to see answered, in the order it issues them (R22, R27). -/
def State.unanswered (s : State) : List Request := s.pending ++ s.onChannel ++ s.program

/-- Every response the host has, then `Exec` of every request it has still to see answered, in order. -/
def State.flow (s : State) : List Response := s.received ++ s.unanswered.map execRequest

end Sys2Proof.Machine
end

