-- ==== Sys2Proof/Certificates/Slice0/Obligations.lean ====
section
/-! DEFINITION. The statements for the provers. Each docstring names the rule or section it formalises. A rule that the spec
itself marks "[derived: ...]" is an inference of the spec, so a statement of it has basis 'derived'. The bit layouts and the
NaN and epsilon patterns that the spec marks "[from general knowledge, not in source]" are named in log 15. -/

open Sys2Proof Sys2Proof.Machine

/-! ### Command words -/

/-- The DEC and ENC rows of 30_encoding.md R87. -/
def opcodeMapDecEnc : List (Word × String) :=
  [(0x00000000, "DEC.BF16"), (0x00000010, "DEC.FP16"), (0x00000020, "DEC.E4M3FN"), (0x00000030, "DEC.E4M3FNUZ"),
   (0x00000001, "ENC.BF16"), (0x00000011, "ENC.FP16"), (0x00000021, "ENC.E4M3FN"), (0x00000031, "ENC.E4M3FNUZ")]

/-- The CVT rows of R87. -/
def opcodeMapCvt : List (Word × String) :=
  [(0x00000002, "CVT.BF16.BF16"), (0x00000102, "CVT.BF16.FP16"),
   (0x00000202, "CVT.BF16.E4M3FN"), (0x00000302, "CVT.BF16.E4M3FNUZ"),
   (0x00000012, "CVT.FP16.BF16"), (0x00000112, "CVT.FP16.FP16"),
   (0x00000212, "CVT.FP16.E4M3FN"), (0x00000312, "CVT.FP16.E4M3FNUZ"),
   (0x00000022, "CVT.E4M3FN.BF16"), (0x00000122, "CVT.E4M3FN.FP16"),
   (0x00000222, "CVT.E4M3FN.E4M3FN"), (0x00000322, "CVT.E4M3FN.E4M3FNUZ"),
   (0x00000032, "CVT.E4M3FNUZ.BF16"), (0x00000132, "CVT.E4M3FNUZ.FP16"),
   (0x00000232, "CVT.E4M3FNUZ.E4M3FN"), (0x00000332, "CVT.E4M3FNUZ.E4M3FNUZ")]

/-- The CONST and SPECQ rows of R87. -/
def opcodeMapConstSpecq : List (Word × String) :=
  [(0x00000003, "CONST.BF16.MINNORM"), (0x00001003, "CONST.BF16.MAXFIN"), (0x00002003, "CONST.BF16.EPS"),
   (0x00003003, "CONST.BF16.QNAN"), (0x00004003, "CONST.BF16.PINF"), (0x00005003, "CONST.BF16.NINF"),
   (0x00000013, "CONST.FP16.MINNORM"), (0x00001013, "CONST.FP16.MAXFIN"), (0x00002013, "CONST.FP16.EPS"),
   (0x00003013, "CONST.FP16.QNAN"), (0x00004013, "CONST.FP16.PINF"), (0x00005013, "CONST.FP16.NINF"),
   (0x00000023, "CONST.E4M3FN.MINNORM"), (0x00001023, "CONST.E4M3FN.MAXFIN"),
   (0x00002023, "CONST.E4M3FN.EPS"), (0x00003023, "CONST.E4M3FN.QNAN"),
   (0x00000033, "CONST.E4M3FNUZ.MINNORM"), (0x00001033, "CONST.E4M3FNUZ.MAXFIN"),
   (0x00002033, "CONST.E4M3FNUZ.EPS"), (0x00003033, "CONST.E4M3FNUZ.QNAN"),
   (0x00000004, "SPECQ.BF16"), (0x00000014, "SPECQ.FP16"), (0x00000024, "SPECQ.E4M3FN"), (0x00000034, "SPECQ.E4M3FNUZ")]

/-- The opcode map: every word of it decodes to the instruction of its mnemonic, and the four infinity constants of the
formats without infinity are rejected (30_encoding.md R87). -/
def Obligations.OpcodeMapDecodes : Prop :=
  (∀ row ∈ opcodeMapDecEnc ++ opcodeMapCvt ++ opcodeMapConstSpecq,
    ∃ i, decode row.1 = .ok i ∧ i.mnemonic = row.2) ∧
  (∀ w ∈ ([0x00004023, 0x00005023, 0x00004033, 0x00005033] : List Word), legal w = false ∧ decode w = .error .noInfinity)

/-- Decoding is one compare of the whole word with the words of the opcode map (30_encoding.md, "Decoding is one compare
of the whole 32-bit word against the 48 words", marked derived there): no bit of a word is free or dropped. -/
def Obligations.DecodingComparesWholeWord : Prop :=
  ∀ (w : Word) (i : Instr), decode w = .ok i ↔ w = encode i

/-- The fields of a command word and the word of its fields (30_encoding.md R60). -/
def Obligations.CommandWordFields : Prop :=
  ∀ w : Word, (Fields.ofWord w).toWord = w ∧
    (Fields.ofWord w).op.toNat = w.toNat % 2 ^ 4 ∧ (Fields.ofWord w).fa.toNat = w.toNat / 2 ^ 4 % 2 ^ 4 ∧
    (Fields.ofWord w).fb.toNat = w.toNat / 2 ^ 8 % 2 ^ 4 ∧ (Fields.ofWord w).sel.toNat = w.toNat / 2 ^ 12 % 2 ^ 4 ∧
    (Fields.ofWord w).rsvd.toNat = w.toNat / 2 ^ 16

/-- Legality (30_encoding.md R68): a word is legal exactly under the clauses of the pseudocode, here on the word's bits;
exactly 48 words are legal; the decoder is total and gives an instruction for exactly the legal words. -/
def Obligations.LegalityAsSpecified : Prop :=
  (∀ w : Word, legal w = true ↔
    w.toNat / 2 ^ 16 = 0 ∧ w.toNat / 2 ^ 4 % 16 ≤ 3 ∧
    ((w.toNat % 16 ∈ [0, 1, 4] ∧ w.toNat / 2 ^ 8 % 16 = 0 ∧ w.toNat / 2 ^ 12 % 16 = 0) ∨
     (w.toNat % 16 = 2 ∧ w.toNat / 2 ^ 8 % 16 ≤ 3 ∧ w.toNat / 2 ^ 12 % 16 = 0) ∨
     (w.toNat % 16 = 3 ∧ w.toNat / 2 ^ 8 % 16 = 0 ∧
      (w.toNat / 2 ^ 12 % 16 ≤ 3 ∨ (w.toNat / 2 ^ 12 % 16 ≤ 5 ∧ w.toNat / 2 ^ 4 % 16 ≤ 1))))) ∧
  (∃ l : List Word, l.length = 48 ∧ l.Nodup ∧ ∀ w, w ∈ l ↔ legal w = true) ∧
  (∀ w : Word, (legal w = true ∧ ∃ i, decode w = .ok i) ∨ (legal w = false ∧ ∃ e, decode w = .error e))

/-- A platform's byte order changes nothing: from the bytes it stores for a word, in either order, the decoder reads what
it reads from the word (20_memory.md section 1, `P_PLATFORM_BYTE_ORDER`). -/
def Obligations.PlatformByteOrderChangesNothing : Prop :=
  ∀ (o : ByteOrder) (w : Word) (rest : List Byte),
    decodeBytes o (wordBytes o w ++ rest) = (decode w).map (fun i => (i, rest))

/-! ### One cycle -/

/-- A step runs the decoded instruction: when the FFC starts to answer, the step is `exec` of the instruction that the
oldest pending request's command word decodes to, at the advanced state (both channels after the clock edge); it is
IllegalCommand for a word that does not decode; in every other cycle the step is the advanced state (10_state.md R28, log 1). -/
def Obligations.StepRunsDecodedCommand : Prop :=
  ∀ s : State,
    (∀ r rest i, s.answers = true → s.advance.pending = r :: rest → decode r.cmd = .ok i → step s = exec i s.advance) ∧
    (∀ r rest e, s.answers = true → s.advance.pending = r :: rest → decode r.cmd = .error e →
      step s = .next s.advance.raiseIllegal) ∧
    (s.answers = true → s.advance.pending = [] → step s = .next s.advance) ∧
    (s.answers = false → step s = .next s.advance)

/-- What a clock edge does on the two channels: a request is accepted exactly when req_valid and req_ready are 1 and is
appended to `pending`; a response is delivered exactly when rsp_valid and rsp_ready are 1, and the head of `pending` goes;
reset on either side of the edge empties `pending` (10_state.md sections 3 and 5). -/
def Obligations.ClockEdgeMovesRequestsAndResponses : Prop :=
  ∀ s t : State, step s = .next t →
    (s.rst = false → s.choice.reset = false →
      t.pending = (if s.rspValid ∧ s.rspReady then s.pending.tail else s.pending) ++
        (if s.reqValid ∧ s.reqReady then [⟨s.reqCmd, s.reqA⟩] else [])) ∧
    (s.rst = false →
      t.received = s.received ++ (if s.rspValid ∧ s.rspReady then [⟨s.rspD, s.rspIll⟩] else [])) ∧
    (s.rst = true → t.received = s.received) ∧
    (s.rst = true ∨ t.rst = true → t.pending = [])

/-- The handshake obligations that hold from one cycle to the next: an unaccepted request and an undelivered response stay
as they are, and req_ready is 0 at full depth (10_state.md section 3, "Handshake obligations"). The request is held through
reset too, which is the model's reading (log 9). -/
def Obligations.HandshakeSignalsAreHeld : Prop :=
  ∀ s t : State, step s = .next t →
    (s.reqValid = true → (s.reqReady = false ∨ s.rst = true) →
      t.reqValid = true ∧ t.reqCmd = s.reqCmd ∧ t.reqA = s.reqA) ∧
    (s.rspValid = true → s.rspReady = false → s.rst = false → t.rst = false →
      t.rspValid = true ∧ t.rspD = s.rspD ∧ t.rspIll = s.rspIll) ∧
    (t.pending.length = Config.maxOutstanding → t.reqReady = false)

/-- The host's conduct: it raises requests in the order of its program, one at a time, none before it has seen req_ready = 1
after reset (70_reset_and_hazards.md section 2; the reading of "before its first request" is the model's, log 10). -/
def Obligations.HostRaisesItsProgramInOrder : Prop :=
  ∀ s t : State, step s = .next t →
    (t.program = s.program ∧ (t.reqValid = true → s.reqValid = true ∧ s.accepts = false)) ∨
    (∃ r, s.program = r :: t.program ∧ t.reqValid = true ∧ t.reqCmd = r.cmd ∧ t.reqA = r.a ∧
      t.booted = true ∧ t.rst = false ∧ s.rst = false ∧ (s.booted = true ∨ s.reqReady = true))

/-- While reset is asserted the FFC accepts no request and offers no response, asserting it discards `pending`, no request
of before it is answered, and in the first cycle after it rsp_valid is still 0 (70_reset_and_hazards.md section 1,
10_state.md section 5). -/
def Obligations.ResetDiscardsAndSilences : Prop :=
  ∀ s t : State, step s = .next t →
    (t.rst = true → t.pending = [] ∧ t.reqReady = false ∧ t.rspValid = false ∧ t.booted = false) ∧
    (s.rst = true → s.accepts = false ∧ s.delivers = false ∧ t.pending = [] ∧ t.rspValid = false ∧
      t.received = s.received)

/-- The state right after reset: `pending` empty, rsp_valid 0 and reset released as the spec gives them, nothing received
and nothing to run (10_state.md section 5; the host's signals and lists are the model's choice, log 8). -/
def Obligations.ResetStateAsSpecified : Prop :=
  State.reset.pending = [] ∧ State.reset.rspValid = false ∧ State.reset.rst = false ∧
  State.reset.reqValid = false ∧ State.reset.program = [] ∧ State.reset.received = [] ∧ State.reset.booted = false

/-- The machine never stops: from every state a step gives a next state, whatever the command words, operands and signals
are (60_exceptions.md sections 1 and 2: no operand and no command word stops the FFC). -/
def Obligations.StepNeverStops : Prop :=
  ∀ s : State, ∃ t, step s = .next t

/-- The invariant holds right after reset. -/
def Obligations.ResetMeetsTheMachineInvariant : Prop := State.reset.Inv

/-- Every step keeps the invariant: `pending` within `P_MAX_OUTSTANDING` (10_state.md R23), req_ready only with capacity left
(R26), a silent machine in reset (R33, R240), and an offered response that is `Exec` of the oldest request (R27, R28). -/
def Obligations.StepKeepsTheMachineInvariant : Prop :=
  ∀ s t : State, s.Inv → step s = .next t → t.Inv

/-- Running the oldest request is `Exec(CMD, A)` (10_state.md R28): what decode and the 48 meanings do is, for every request
and state, what the one function by fields says, and nothing else of the state changes. -/
def Obligations.EveryCommandAnswersAsExec : Prop :=
  ∀ (s : State) (r : Request) (rest : List Request), s.pending = r :: rest →
    runHead s = .next { s with
      rspValid := true, rspD := (execRequest r).d, rspIll := (execRequest r).ill }

/-- The response to a request is a function of that request alone: two machines that run the same request, in any two
states, offer the same response (20_memory.md R46, R43). -/
def Obligations.ResponseDependsOnTheRequestAlone : Prop :=
  ∀ (s s' t t' : State) (r : Request) (rest rest' : List Request),
    s.pending = r :: rest → s'.pending = r :: rest' → runHead s = .next t → runHead s' = .next t' →
    t.rspValid = true ∧ t'.rspValid = true ∧ t.rspD = t'.rspD ∧ t.rspIll = t'.rspIll

/-! ### Runs -/

/-- Order, one cycle: unless reset is asserted in the coming cycle, a step changes nothing in the sequence that the host's
responses, then `Exec` of its unanswered requests, make up; if it is asserted, only the requests in `pending` (one accepted
at the very edge among them) lose their responses (10_state.md section 3, "Ordering"; 70_reset_and_hazards.md section 1).
That the request on the channel, unaccepted, stays held when reset is asserted and while it lasts, and so still counts as to
be answered, is the model's reading (log 9, DEDUCED), not a rule of the spec. -/
def Obligations.StepKeepsTheOrderOfResponses : Prop :=
  ∀ s t : State, s.Inv → step s = .next t →
    (t.rst = false → t.flow = s.flow) ∧
    (t.rst = true → ∃ lost, s.flow = t.received ++ lost ++ (t.onChannel ++ t.program).map execRequest ∧
      lost = s.queued.map execRequest)

/-- In any run without reset, of any length and any timing, every request gets exactly one response, `Exec` of itself, in
acceptance order: once nothing is left unanswered, the host has received exactly `Exec` of its unanswered requests, in
order, after what it had (10_state.md R27). -/
def Obligations.EveryRequestAnsweredOnceInOrder : Prop :=
  ∀ (n : Nat) (s t : State), s.Inv → s.NoReset n → run n s = .next t →
    t.flow = s.flow ∧ (t.unanswered = [] → t.received = s.received ++ s.unanswered.map execRequest)

/-- Liveness of responses, with weak fairness as a premise on the open choices: if `pending` is not empty and the timing lets
the FFC respond in one of the coming cycles, no reset before it, then by then rsp_valid has been 1 for the head
(10_state.md section 3, liveness). -/
def Obligations.PendingRequestIsEventuallyAnswered : Prop :=
  ∀ (n : Nat) (s : State) (r : Request) (rest : List Request), s.Inv → s.pending = r :: rest → s.NoReset (n + 1) →
    (s.choiceAt n).respond = true →
    ∃ k ≤ n + 1, ∃ t, run k s = .next t ∧ t.rspValid = true ∧
      t.pending.head? = some r ∧ (⟨t.rspD, t.rspIll⟩ : Response) = execRequest r

/-- Liveness of req_ready, with weak fairness as a premise on the open choices: if capacity is left and the timing lets the
FFC be ready in one of the coming cycles, no reset before it, then by then req_ready has been 1 (10_state.md section 3,
liveness). -/
def Obligations.CapacityIsEventuallyOffered : Prop :=
  ∀ (n : Nat) (s : State), s.Inv → s.pending.length < Config.maxOutstanding → s.NoReset (n + 1) →
    (s.choiceAt n).ready = true →
    ∃ k ≤ n + 1, ∃ t, run k s = .next t ∧ t.reqReady = true

/-- The latency is open: for every number of cycles the model has a timing in which the head of `pending` gets its response
after exactly that many further cycles (`P_LAT` is any natural number, 00_scope.md section 3; log 2). -/
def Obligations.EveryLatencyIsPossible : Prop :=
  ∀ (n : Nat) (s : State) (r : Request) (rest : List Request),
    s.pending = r :: rest → s.rst = false → s.rspValid = false →
    ∃ sched : List CycleChoice,
      (∀ k ≤ n, ∃ t, run k { s with sched := sched } = .next t ∧ t.rspValid = false) ∧
      (∃ t, run (n + 1) { s with sched := sched } = .next t ∧ t.rspValid = true ∧
        (⟨t.rspD, t.rspIll⟩ : Response) = execRequest r)

/-! ### IllegalCommand, completion, frames -/

/-- IllegalCommand (60_exceptions.md R210): a word is illegal exactly for one of the listed causes, and running it answers
`rsp_d = 0`, `rsp_ill = 1`, in order like any other response, and changes nothing else. -/
def Obligations.IllegalCommandIsFlaggedAndHarmless : Prop :=
  (∀ w : Word, legal w = false ↔
    w.toNat % 16 ≥ 5 ∨ w.toNat / 2 ^ 4 % 16 ≥ 4 ∨ (w.toNat % 16 = 2 ∧ w.toNat / 2 ^ 8 % 16 ≥ 4) ∨
    (w.toNat % 16 ≠ 2 ∧ w.toNat / 2 ^ 8 % 16 ≠ 0) ∨ (w.toNat % 16 ≠ 3 ∧ w.toNat / 2 ^ 12 % 16 ≠ 0) ∨
    w.toNat / 2 ^ 12 % 16 ≥ 6 ∨
    (w.toNat / 2 ^ 12 % 16 ∈ [4, 5] ∧ w.toNat / 2 ^ 4 % 16 ∈ [2, 3]) ∨ w.toNat / 2 ^ 16 ≠ 0) ∧
  (∀ (s : State) (r : Request) (rest : List Request), s.pending = r :: rest → legal r.cmd = false →
    runHead s = .next { s with rspValid := true, rspD := 0, rspIll := true })

/-- Every one of the 48 instructions completes on every operand, with `rsp_ill = 0`, and changes nothing but the response it
offers: no numeric exception exists (60_exceptions.md R211). -/
def Obligations.EveryInstructionCompletesUnflagged : Prop :=
  ∀ (i : Instr) (s : State) (r : Request) (rest : List Request), s.pending = r :: rest →
    ∃ d, exec i s = .next { s with rspValid := true, rspD := d, rspIll := false }

/-- The frame of every instruction: where `exec` gives a next state, all of it but the response channel's three signals is as
before, rsp_valid is 1 and rsp_ill is 0; the FFC has no register, flag or memory to change (10_state.md section 4). The one
stop is the model's own (log 13): with no pending request there is nothing to run. -/
def Obligations.ExecChangesOnlyTheResponse : Prop :=
  (∀ (i : Instr) (s t : State), exec i s = .next t →
    t = { s with rspValid := true, rspD := t.rspD, rspIll := false }) ∧
  (∀ (i : Instr) (s : State), s.pending = [] ↔ exec i s = .fault .noRequest)

/-- The operand forms (30_encoding.md, "Operand and result packing"): DEC, CVT and SPECQ read only `A[FA.W-1:0]`, CONST reads
nothing of `A`; ENC, CVT and CONST leave `D[31:W] = 0` for the width of the narrow result, SPECQ leaves `D[31:3] = 0`. -/
def Obligations.OperandsAndResultsArePacked : Prop :=
  (∀ (f g : Fmt) (s s' t t' : State) (r r' : Request) (rest rest' : List Request) (i : Instr),
    i = decInstr f ∨ i = cvtInstr f g ∨ i = specqInstr f →
    s.pending = r :: rest → s'.pending = r' :: rest' →
    (∀ j < f.spec.w, r.a.getLsbD j = r'.a.getLsbD j) →
    exec i s = .next t → exec i s' = .next t' → t.rspD = t'.rspD) ∧
  (∀ (f : Fmt) (c : Sel) (i : Instr) (s s' t t' : State), constInstr f c = some i →
    exec i s = .next t → exec i s' = .next t' → t.rspD = t'.rspD ∧ t.rspD.toNat < 2 ^ f.spec.w) ∧
  (∀ (f g : Fmt) (s t : State), exec (cvtInstr f g) s = .next t → t.rspD.toNat < 2 ^ g.spec.w) ∧
  (∀ (f : Fmt) (s t : State), exec (encInstr f) s = .next t → t.rspD.toNat < 2 ^ f.spec.w) ∧
  (∀ (f : Fmt) (s t : State), exec (specqInstr f) s = .next t → t.rspD.toNat < 2 ^ 3)

/-! ### DEC -/

/-- DEC.BF16 is exactly `D = b << 16` (41_decode.md, "`DEC.BF16` is exactly `D = b << 16` for every `b`", derived there). -/
def Obligations.DecBf16IsTheUpperHalf : Prop :=
  Answers .decBf16 (fun a => a <<< 16)

/-- The table of `DEC.FP16` in 41_decode.md. -/
def decFp16Table (a : Word) : Word :=
  let s := a.getLsbD 15
  let e := a.toNat / 2 ^ 10 % 2 ^ 5
  let m := a.toNat % 2 ^ 10
  if e = 31 then (if m = 0 then (if s then 0xFF800000 else 0x7F800000) else word32 s 0xFF (m * 2 ^ 13))
  else if e = 0 then (if m = 0 then (if s then 0x80000000 else 0) else pack32 s m (-24))
  else word32 s (e + 112) (m * 2 ^ 13)

/-- DEC.FP16, case by case as its table in 41_decode.md has it (derived there). -/
def Obligations.DecFp16AsTabulated : Prop :=
  Answers .decFp16 decFp16Table

/-- The table of `DEC.E4M3FN` in 41_decode.md. -/
def decE4m3fnTable (a : Word) : Word :=
  let s := a.getLsbD 7
  let e := a.toNat / 2 ^ 3 % 2 ^ 4
  let m := a.toNat % 2 ^ 3
  if e = 15 ∧ m = 7 then (if s then 0xFFF00000 else 0x7FF00000)
  else if e = 15 then pack32 s (8 + m) 5
  else if e = 0 then (if m = 0 then (if s then 0x80000000 else 0) else pack32 s m (-9))
  else word32 s (e + 120) (m * 2 ^ 20)

/-- DEC.E4M3FN, case by case as its table in 41_decode.md has it (derived there). -/
def Obligations.DecE4m3fnAsTabulated : Prop :=
  Answers .decE4m3fn decE4m3fnTable

/-- The table of `DEC.E4M3FNUZ` in 41_decode.md. -/
def decE4m3fnuzTable (a : Word) : Word :=
  let s := a.getLsbD 7
  let e := a.toNat / 2 ^ 3 % 2 ^ 4
  let m := a.toNat % 2 ^ 3
  if e = 0 ∧ m = 0 then (if s then 0x7FC00000 else 0)
  else if e = 0 then pack32 s m (-10)
  else word32 s (e + 119) (m * 2 ^ 20)

/-- DEC.E4M3FNUZ, case by case as its table in 41_decode.md has it (derived there): one NaN, one zero, the all-ones exponent
finite. -/
def Obligations.DecE4m3fnuzAsTabulated : Prop :=
  Answers .decE4m3fnuz decE4m3fnuzTable

/-- DEC is exact: a pattern's binary32 word has the very value the source's formula gives the pattern, a NaN pattern gives a
NaN, an infinity pattern the infinity of its sign, and `Pack32` is called only where its requirements hold (41_decode.md,
"DEC is exact", derived there). -/
def Obligations.DecodingIsExact : Prop :=
  ∀ (f : Fmt) (b : Nat), b < 2 ^ f.spec.w →
    value32 (dec f b) = patValue f b ∧ isNaN32 (dec f b) = isNaNPattern f b ∧ isInf32 (dec f b) = isInfPattern f b ∧
    ((patValue f b).isSome = true → sign32 (dec f b) = f.signOf b) ∧
    (isInfPattern f b = true → sign32 (dec f b) = f.signOf b) ∧
    (f.expOf b = 0 → f.manOf b ≠ 0 → Pack32Ok (f.manOf b) (1 - f.spec.bias - f.spec.m)) ∧
    (f.expOf b ≠ 0 → (patValue f b).isSome = true →
      Pack32Ok (2 ^ f.spec.m + f.manOf b) (f.expOf b - f.spec.bias - f.spec.m))

/-- `Pack32` gives the word of the value it is asked for, wherever its requirements hold (30_encoding.md, `Pack32`, derived
there). -/
def Obligations.Pack32KeepsTheValue : Prop :=
  ∀ (s : Bool) (sig : Nat) (q : Int), Pack32Ok sig q →
    value32 (pack32 s sig q) = some (signum s * sig * 2 ^ q) ∧ sign32 (pack32 s sig q) = s

/-- DEC is injective on the patterns of a format (41_decode.md, "DEC is injective", derived there). -/
def Obligations.DecodingIsInjective : Prop :=
  ∀ (f : Fmt) (b b' : Nat), b < 2 ^ f.spec.w → b' < 2 ^ f.spec.w → dec f b = dec f b' → b = b'

/-- NaN decoding (41_decode.md R106): BF16, FP16 and E4M3FN keep the sign and left-align the mantissa under the all-ones
exponent, no bit forced; E4M3FNUZ's one NaN gives 0x7FC00000. -/
def Obligations.NaNDecoding : Prop :=
  ∀ (f : Fmt) (s : State) (r : Request) (rest : List Request), s.pending = r :: rest →
    isNaNPattern f (r.a.toNat % 2 ^ f.spec.w) = true →
    exec (decInstr f) s = .next { s with
      rspValid := true, rspIll := false,
      rspD := if f = .e4m3fnuz then 0x7FC00000
        else word32 (f.signOf (r.a.toNat % 2 ^ f.spec.w)) 0xFF
          (f.manOf (r.a.toNat % 2 ^ f.spec.w) * 2 ^ (23 - f.spec.m)) }

/-! ### ENC -/

/-- Every ENC completes with `D = zext_32(ENC(F, A))`, all 32 bits of `A` read (42_encode.md, the family's result line). -/
def Obligations.EncAnswersItsPattern : Prop :=
  ∀ f : Fmt, Answers (encInstr f) (fun a => BitVec.ofNat 32 (enc f a))

/-- The formula of `ENC.BF16` in 42_encode.md for a word that is no NaN, and 0x7FC0 for a NaN. -/
def encBf16Formula (a : Word) : Word :=
  if a.toNat / 2 ^ 23 % 2 ^ 8 = 255 ∧ a.toNat % 2 ^ 23 ≠ 0 then 0x7FC0
  else BitVec.ofNat 32 ((a.toNat + 0x7FFF + a.toNat / 2 ^ 16 % 2) / 2 ^ 16 % 2 ^ 16)

/-- ENC.BF16 is the upper half rounded ties-to-even on the low 16 bits, `((a + 0x7FFF + a[16]) >> 16)[15:0]`, for every `a`
that is no NaN, and 0x7FC0 for a NaN (42_encode.md, `ENC.BF16`, derived there). -/
def Obligations.EncBf16IsRoundedUpperHalf : Prop :=
  Answers .encBf16 encBf16Formula

/-- `RNE(sig, sh)` is the integer nearest to `sig × 2^-sh`, the even one of two at a tie, and exact where no bit is discarded
(42_encode.md R131). -/
def Obligations.RoundingIsNearestTiesToEven : Prop :=
  ∀ (sig : Nat) (sh : Int),
    (sh ≤ 0 → (rne sig sh : ℚ) = sig * 2 ^ (-sh)) ∧
    (∀ m : Nat, |(rne sig sh : ℚ) - sig * 2 ^ (-sh)| ≤ |(m : ℚ) - sig * 2 ^ (-sh)|) ∧
    (∀ m : Nat, m ≠ rne sig sh → |(rne sig sh : ℚ) - sig * 2 ^ (-sh)| = |(m : ℚ) - sig * 2 ^ (-sh)| →
      rne sig sh % 2 = 0)

/-- NaN encoding (42_encode.md R134): every binary32 NaN, whatever its sign and payload, gives the format's one pattern. -/
def Obligations.NaNEncodesToOnePattern : Prop :=
  ∀ (f : Fmt) (s : State) (r : Request) (rest : List Request), s.pending = r :: rest →
    r.a.toNat / 2 ^ 23 % 2 ^ 8 = 255 → r.a.toNat % 2 ^ 23 ≠ 0 →
    exec (encInstr f) s = .next { s with
      rspValid := true, rspIll := false,
      rspD := match f with
        | .bf16 => 0x7FC0
        | .fp16 => 0x7E00
        | .e4m3fn => 0x7F
        | .e4m3fnuz => 0x80 }

/-- Infinite input (42_encode.md R135): a signed infinity in BF16 and FP16, the signed largest finite pattern in E4M3FN and
E4M3FNUZ. -/
def Obligations.InfinityEncoding : Prop :=
  ∀ (f : Fmt) (neg : Bool) (s : State) (r : Request) (rest : List Request), s.pending = r :: rest →
    r.a = (if neg then 0xFF800000 else 0x7F800000) →
    exec (encInstr f) s = .next { s with
      rspValid := true, rspIll := false,
      rspD := match f, neg with
        | .bf16, false => 0x7F80
        | .bf16, true => 0xFF80
        | .fp16, false => 0x7C00
        | .fp16, true => 0xFC00
        | .e4m3fn, false => 0x7E
        | .e4m3fn, true => 0xFE
        | .e4m3fnuz, false => 0x7F
        | .e4m3fnuz, true => 0xFF }

/-- Zero input (42_encode.md R137): the signed zero of the format, one zero in E4M3FNUZ. -/
def Obligations.ZeroEncoding : Prop :=
  ∀ (f : Fmt) (neg : Bool) (s : State) (r : Request) (rest : List Request), s.pending = r :: rest →
    r.a = (if neg then 0x80000000 else 0) →
    exec (encInstr f) s = .next { s with
      rspValid := true, rspIll := false,
      rspD := match f, neg with
        | .bf16, true => 0x8000
        | .fp16, true => 0x8000
        | .e4m3fn, true => 0x80
        | .e4m3fnuz, true => 0
        | _, false => 0 }

/-- Saturation (42_encode.md R136): a finite input beyond 448 in E4M3FN, beyond 240 in E4M3FNUZ, gives the signed largest
finite pattern. -/
def Obligations.SaturationOfFiniteFormats : Prop :=
  ∀ (s : State) (r : Request) (rest : List Request) (v : ℚ), s.pending = r :: rest → value32 r.a = some v →
    (448 < |v| → exec .encE4m3fn s = .next { s with
      rspValid := true, rspIll := false, rspD := if v < 0 then 0xFE else 0x7E }) ∧
    (240 < |v| → exec .encE4m3fnuz s = .next { s with
      rspValid := true, rspIll := false, rspD := if v < 0 then 0xFF else 0x7F })

/-- Overflow of BF16 and FP16 (42_encode.md, "Case 3, overflow to infinity", derived there): a finite input gives an infinity
exactly from the threshold on, 2^128 − 2^119 and 65520. -/
def Obligations.OverflowThresholdOfInfinityFormats : Prop :=
  ∀ (s : State) (r : Request) (rest : List Request) (v : ℚ), s.pending = r :: rest → value32 r.a = some v →
    (exec .encBf16 s = .next { s with
      rspValid := true, rspIll := false, rspD := if v < 0 then 0xFF80 else 0x7F80 } ↔ 2 ^ 128 - 2 ^ 119 ≤ |v|) ∧
    (exec .encFp16 s = .next { s with
      rspValid := true, rspIll := false, rspD := if v < 0 then 0xFC00 else 0x7C00 } ↔ 65520 ≤ |v|)

/-- Underflow to zero (42_encode.md R144): a finite nonzero input gives a zero exactly when its magnitude is at most half the
smallest subnormal, the tie included; the zero keeps the sign but in E4M3FNUZ, where it is 0x00. -/
def Obligations.UnderflowThresholdAndSign : Prop :=
  ∀ (f : Fmt) (s : State) (r : Request) (rest : List Request) (v : ℚ), s.pending = r :: rest →
    value32 r.a = some v → v ≠ 0 →
    (exec (encInstr f) s = .next { s with
      rspValid := true, rspIll := false,
      rspD := if f = .e4m3fnuz then 0 else if v < 0 then 2 ^ (f.spec.w - 1) else 0 } ↔ |v| ≤ underflowBound f)

/-- Subnormal binary32 inputs are encoded from their exact value `fraction × 2^-149`, as any other finite value is: nothing is
flushed. ENC.BF16 of 0x00018000, a tie, is 0x0002 (42_encode.md R145). -/
def Obligations.SubnormalInputIsNotFlushed : Prop :=
  (∀ (f : Fmt) (s : State) (r : Request) (rest : List Request), s.pending = r :: rest →
    r.a.toNat / 2 ^ 23 % 2 ^ 8 = 0 → r.a.toNat % 2 ^ 23 ≠ 0 →
    value32 r.a = some (signum (r.a.getLsbD 31) * (r.a.toNat % 2 ^ 23 : Nat) * 2 ^ (-149 : Int)) ∧
    exec (encInstr f) s = .next { s with
      rspValid := true, rspIll := false,
      rspD := BitVec.ofNat 32 (encFin f (r.a.getLsbD 31) (r.a.toNat % 2 ^ 23) (-149)) }) ∧
  (∀ (s : State) (r : Request) (rest : List Request), s.pending = r :: rest → r.a = 0x00018000 →
    exec .encBf16 s = .next { s with rspValid := true, rspIll := false, rspD := 0x0002 })

/-- Correct rounding of ENC: a finite input whose magnitude is in range encodes to a finite pattern whose value
is nearest to it among all the values of the format, with an even mantissa where another value is as near (42_encode.md,
"Exactness", "the nearest representable value, ties to even", derived there). -/
def Obligations.EncodingRoundsToNearestEven : Prop :=
  ∀ (f : Fmt) (s : State) (r : Request) (rest : List Request) (v : ℚ), s.pending = r :: rest →
    value32 r.a = some v → InRange f v →
    ∃ (d : Nat) (u : ℚ),
      exec (encInstr f) s = .next { s with rspValid := true, rspIll := false, rspD := BitVec.ofNat 32 d } ∧
      d < 2 ^ f.spec.w ∧ patValue f d = some u ∧ (u ≠ 0 → (u < 0 ↔ v < 0)) ∧
      ∀ (b : Nat) (u' : ℚ), b < 2 ^ f.spec.w → patValue f b = some u' →
        |u - v| ≤ |u' - v| ∧ (u' ≠ u → |u - v| = |u' - v| → f.manOf d % 2 = 0)

/-- Exactness (42_encode.md, "Exactness", derived there): the result decodes to the input's own value exactly when the format
has a pattern of that value. -/
def Obligations.EncodingIsExactWhenRepresentable : Prop :=
  ∀ (f : Fmt) (a : Word) (v : ℚ), value32 a = some v →
    (value32 (dec f (enc f a)) = some v ↔ ∃ b < 2 ^ f.spec.w, patValue f b = some v)

/-- Round trip (42_encode.md, "Round trip", derived there): re-encoding a decoded pattern gives the pattern back, signed zeros
and infinities included, and the format's NaN pattern for a NaN. -/
def Obligations.DecodeThenEncodeRoundTrip : Prop :=
  ∀ (f : Fmt) (b : Nat), b < 2 ^ f.spec.w → enc f (dec f b) = if isNaNPattern f b then f.qnan else b

/-- Monotonicity (42_encode.md, "Monotonicity", derived there, conflict C3): encoding keeps the order of finite inputs, and
keeps it strictly between values that the format represents. -/
def Obligations.EncodingIsMonotone : Prop :=
  ∀ (f : Fmt) (x y : Word) (vx vy : ℚ), value32 x = some vx → value32 y = some vy →
    (vx ≤ vy → ∃ ux uy, extended32 (dec f (enc f x)) = some ux ∧ extended32 (dec f (enc f y)) = some uy ∧ ux ≤ uy) ∧
    (vx < vy → (∃ b < 2 ^ f.spec.w, patValue f b = some vx) → (∃ b < 2 ^ f.spec.w, patValue f b = some vy) →
      ∃ ux uy, extended32 (dec f (enc f x)) = some ux ∧ extended32 (dec f (enc f y)) = some uy ∧ ux < uy)

/-- The NaN pattern is never produced by another case (42_encode.md, "The NaN pattern is never produced by another case",
derived there): an input that is no NaN encodes to no NaN pattern, and its result fits the format. -/
def Obligations.NaNPatternOnlyFromNaN : Prop :=
  ∀ (f : Fmt) (a : Word), isNaN32 a = false → isNaNPattern f (enc f a) = false ∧ enc f a < 2 ^ f.spec.w

/-- Saturation tested before or after rounding gives the same result (42_encode.md, "Pre- versus post-rounding overflow
tests", derived there). -/
def Obligations.OverflowTestOrderIsImmaterial : Prop :=
  ∀ (f : Fmt) (a : Word), f.spec.kind ≠ .ieee → encTestedAfterRounding f a = enc f a

/-! ### CVT -/

/-- Every CVT completes with decode-then-encode through binary32 (43_convert.md, the family's pseudocode, derived there). -/
def Obligations.CvtIsDecodeThenEncode : Prop :=
  ∀ fa fb : Fmt, Answers (cvtInstr fa fb) (fun a => BitVec.ofNat 32 (enc fb (dec fa (a.toNat % 2 ^ fa.spec.w))))

/-- CVT of a format to itself is the identity on every pattern but a NaN's, which gives the one NaN pattern (43_convert.md,
`CVT.BF16.BF16`, `CVT.FP16.FP16`, `CVT.E4M3FN.E4M3FN`, `CVT.E4M3FNUZ.E4M3FNUZ`, derived there). -/
def Obligations.CvtToTheSameFormatIsIdentity : Prop :=
  ∀ f : Fmt, Answers (cvtInstr f f) (fun a =>
    if isNaNPattern f (a.toNat % 2 ^ f.spec.w) then BitVec.ofNat 32 f.qnan else BitVec.ofNat 32 (a.toNat % 2 ^ f.spec.w))

/-- CVT of an 8-bit format to a 16-bit one is exact on every pattern that is no NaN and gives the NaN pattern for a NaN
(43_convert.md, `CVT.E4M3FN.BF16`, `CVT.E4M3FN.FP16`, `CVT.E4M3FNUZ.BF16`, `CVT.E4M3FNUZ.FP16`, derived there). -/
def Obligations.CvtWideningIsExact : Prop :=
  ∀ (f g : Fmt) (b : Nat), f.spec.w = 8 → g.spec.w = 16 → b < 2 ^ 8 →
    (isNaNPattern f b = false → (patValue f b).isSome = true ∧ patValue g (cvt f g b) = patValue f b ∧
      g.signOf (cvt f g b) = f.signOf b) ∧
    (isNaNPattern f b = true → cvt f g b = g.qnan)

/-- What 43_convert.md says of `CVT.E4M3FN.E4M3FNUZ`, on the sign and magnitude of the pattern. -/
def e4m3fnToE4m3fnuz (a : Word) : Word :=
  let s := a.toNat / 2 ^ 7 % 2 * 2 ^ 7
  let m := a.toNat % 2 ^ 7
  if m = 0x7F then 0x80
  else if 0x78 ≤ m then BitVec.ofNat 32 (s + 0x7F)
  else if m = 0 then 0
  else if m < 8 then BitVec.ofNat 32 (s + 2 * m)
  else BitVec.ofNat 32 (s + m + 8)

/-- CVT.E4M3FN.E4M3FNUZ on every pattern (43_convert.md, `CVT.E4M3FN.E4M3FNUZ`, derived there): NaN to 0x80, magnitudes 256 to
448 saturate, both zeros to 0x00, every other value exact: a subnormal `m × 2^-9` is `2m × 2^-10`, a normal has an exponent
field one higher. -/
def Obligations.CvtE4m3fnToE4m3fnuz : Prop :=
  Answers .cvtE4m3fnE4m3fnuz e4m3fnToE4m3fnuz

/-- What 43_convert.md says of `CVT.E4M3FNUZ.E4M3FN`, on the sign and magnitude of the pattern. -/
def e4m3fnuzToE4m3fn (a : Word) : Word :=
  let s := a.toNat / 2 ^ 7 % 2 * 2 ^ 7
  let m := a.toNat % 2 ^ 7
  if s = 0x80 ∧ m = 0 then 0x7F
  else if m < 16 then BitVec.ofNat 32 (s + m / 2 + if m % 4 = 3 then 1 else 0)
  else BitVec.ofNat 32 (s + m - 8)

/-- CVT.E4M3FNUZ.E4M3FN on every pattern (43_convert.md, `CVT.E4M3FNUZ.E4M3FN`, derived there): NaN to 0x7F, the two lowest
binades halve their last place and round ties to even, every other value is exact with an exponent field one lower. -/
def Obligations.CvtE4m3fnuzToE4m3fn : Prop :=
  Answers .cvtE4m3fnuzE4m3fn e4m3fnuzToE4m3fn

/-- For a conversion from a 16-bit format: the magnitude pattern from which it overflows (to infinity or by saturation) and
the largest one that underflows to zero, as 43_convert.md states them for each pair. -/
def rangeEnds : Fmt → Fmt → Option (Nat × Nat)
  | .bf16, .fp16     => some (0x4780, 0x3300)
  | .bf16, .e4m3fn   => some (0x43E1, 0x3A80)
  | .bf16, .e4m3fnuz => some (0x4371, 0x3A00)
  | .fp16, .bf16     => some (0x7C00, 0x0000)
  | .fp16, .e4m3fn   => some (0x5F01, 0x1400)
  | .fp16, .e4m3fnuz => some (0x5B81, 0x1000)
  | _, _             => none

/-- The range ends of the conversions from a 16-bit format to another format (43_convert.md, `CVT.BF16.FP16` to
`CVT.FP16.E4M3FNUZ`, derived there): from the first end on, infinities included, the result is the signed infinity or the
signed largest finite pattern; up to the second end, and only there, it is the zero of the format; a NaN gives the NaN
pattern. -/
def Obligations.CvtRangeEnds : Prop :=
  ∀ (fa fb : Fmt) (hi lo b : Nat), rangeEnds fa fb = some (hi, lo) → b < 2 ^ 16 →
    (isNaNPattern fa b = true → cvt fa fb b = fb.qnan) ∧
    (isNaNPattern fa b = false → hi ≤ b % 2 ^ 15 →
      cvt fa fb b = if fb.spec.kind = .ieee then fb.inf (b.testBit 15) else fb.sat (b.testBit 15)) ∧
    (b % 2 ^ 15 ≤ lo ↔ cvt fa fb b = fb.zero (b.testBit 15)) ∧
    (b % 2 ^ 15 < hi → (patValue fb (cvt fa fb b)).isSome = true)

/-! ### CONST and SPECQ -/

/-- CONST of the four formats, the tables of 44_const_query.md (derived there; EPS is `2^-M` by general knowledge, log 15):
every one of the 20 completes with its tabulated pattern, whatever `A` is. -/
def Obligations.ConstantsAsTabulated : Prop :=
  Answers .constBf16Minnorm (fun _ => 0x00000080) ∧ Answers .constBf16Maxfin (fun _ => 0x00007F7F) ∧
  Answers .constBf16Eps (fun _ => 0x00003C00) ∧ Answers .constBf16Qnan (fun _ => 0x00007FC0) ∧
  Answers .constBf16Pinf (fun _ => 0x00007F80) ∧ Answers .constBf16Ninf (fun _ => 0x0000FF80) ∧
  Answers .constFp16Minnorm (fun _ => 0x00000400) ∧ Answers .constFp16Maxfin (fun _ => 0x00007BFF) ∧
  Answers .constFp16Eps (fun _ => 0x00001400) ∧ Answers .constFp16Qnan (fun _ => 0x00007E00) ∧
  Answers .constFp16Pinf (fun _ => 0x00007C00) ∧ Answers .constFp16Ninf (fun _ => 0x0000FC00) ∧
  Answers .constE4m3fnMinnorm (fun _ => 0x00000008) ∧ Answers .constE4m3fnMaxfin (fun _ => 0x0000007E) ∧
  Answers .constE4m3fnEps (fun _ => 0x00000020) ∧ Answers .constE4m3fnQnan (fun _ => 0x0000007F) ∧
  Answers .constE4m3fnuzMinnorm (fun _ => 0x00000008) ∧ Answers .constE4m3fnuzMaxfin (fun _ => 0x0000007F) ∧
  Answers .constE4m3fnuzEps (fun _ => 0x00000028) ∧ Answers .constE4m3fnuzQnan (fun _ => 0x00000080)

/-- The constants are the limits they are named for (44_const_query.md section 1, 30_encoding.md "Limits"): MAXFIN is the
greatest of the format's finite values, MINNORM the least positive value with a nonzero exponent field, EPS the difference
between 1.0 and the next larger value, QNAN a NaN pattern, and PINF and NINF the two infinities. -/
def Obligations.ConstantsAreTheLimitsTheyName : Prop :=
  ∀ f : Fmt,
    patValue f (const f .maxfin) = some (maxValue f) ∧
    (∀ b v, b < 2 ^ f.spec.w → patValue f b = some v → v ≤ maxValue f) ∧
    patValue f (const f .minnorm) = some (2 ^ f.emin) ∧
    (∀ b v, b < 2 ^ f.spec.w → patValue f b = some v → 0 < v → f.expOf b ≠ 0 → 2 ^ f.emin ≤ v) ∧
    (∃ e, patValue f (const f .eps) = some e ∧ (∃ b < 2 ^ f.spec.w, patValue f b = some (1 + e)) ∧
      ∀ b v, b < 2 ^ f.spec.w → patValue f b = some v → 1 < v → 1 + e ≤ v) ∧
    isNaNPattern f (const f .qnan) = true ∧
    (f.spec.kind = .ieee → isInfPattern f (const f .pinf) = true ∧ f.signOf (const f .pinf) = false ∧
      isInfPattern f (const f .ninf) = true ∧ f.signOf (const f .ninf) = true)

/-- SPECQ's result for an IEEE kind with exponent field `e` of `n` bits and mantissa `m` (44_const_query.md). -/
def specqIeeeResult (n e m : Nat) : Word :=
  if e ≠ 2 ^ n - 1 then 4 else if m = 0 then 6 else 7

/-- SPECQ of every format (44_const_query.md, the four per-format rules, derived there): `D[2]` is 1 for BF16 and FP16 only,
`D[1]` is 1 for an all-ones exponent of those two, `D[0]` is 1 for a NaN pattern. -/
def Obligations.SpecqPredicates : Prop :=
  Answers .specqBf16 (fun a => specqIeeeResult 8 (a.toNat / 2 ^ 7 % 2 ^ 8) (a.toNat % 2 ^ 7)) ∧
  Answers .specqFp16 (fun a => specqIeeeResult 5 (a.toNat / 2 ^ 10 % 2 ^ 5) (a.toNat % 2 ^ 10)) ∧
  Answers .specqE4m3fn (fun a => if a.toNat % 2 ^ 8 = 0x7F ∨ a.toNat % 2 ^ 8 = 0xFF then 1 else 0) ∧
  Answers .specqE4m3fnuz (fun a => if a.toNat % 2 ^ 8 = 0x80 then 1 else 0)

/-- SPECQ agrees with DEC: bit 0 of SPECQ's result is 1 exactly when DEC of the same operand gives a binary32 NaN
(44_const_query.md, "isNaNPattern agrees with DEC", derived there). -/
def Obligations.SpecqAgreesWithDec : Prop :=
  ∀ (f : Fmt) (s t t' : State), exec (specqInstr f) s = .next t → exec (decInstr f) s = .next t' →
    t.rspD.getLsbD 0 = isNaN32 t'.rspD
end

