-- ==== Sys2Proof/Laws/State.lean ====
section
/-! SUPPORT. One lemma per field and per update of the state, so that no later proof unfolds a record update. -/

namespace Sys2Proof.Machine

/-! ### respond -/

@[simp] theorem State.respond_rst (s : State) (d : Word) : (s.respond d).rst = s.rst := rfl
@[simp] theorem State.respond_pending (s : State) (d : Word) : (s.respond d).pending = s.pending := rfl
@[simp] theorem State.respond_reqValid (s : State) (d : Word) : (s.respond d).reqValid = s.reqValid := rfl
@[simp] theorem State.respond_reqReady (s : State) (d : Word) : (s.respond d).reqReady = s.reqReady := rfl
@[simp] theorem State.respond_reqCmd (s : State) (d : Word) : (s.respond d).reqCmd = s.reqCmd := rfl
@[simp] theorem State.respond_reqA (s : State) (d : Word) : (s.respond d).reqA = s.reqA := rfl
@[simp] theorem State.respond_rspValid (s : State) (d : Word) : (s.respond d).rspValid = true := rfl
@[simp] theorem State.respond_rspReady (s : State) (d : Word) : (s.respond d).rspReady = s.rspReady := rfl
@[simp] theorem State.respond_rspD (s : State) (d : Word) : (s.respond d).rspD = d := rfl
@[simp] theorem State.respond_rspIll (s : State) (d : Word) : (s.respond d).rspIll = false := rfl
@[simp] theorem State.respond_booted (s : State) (d : Word) : (s.respond d).booted = s.booted := rfl
@[simp] theorem State.respond_program (s : State) (d : Word) : (s.respond d).program = s.program := rfl
@[simp] theorem State.respond_received (s : State) (d : Word) : (s.respond d).received = s.received := rfl
@[simp] theorem State.respond_sched (s : State) (d : Word) : (s.respond d).sched = s.sched := rfl
@[simp] theorem State.respond_tick (s : State) (d : Word) : (s.respond d).tick = s.tick := rfl

/-! ### raiseIllegal -/

@[simp] theorem State.raiseIllegal_rst (s : State) : (s.raiseIllegal).rst = s.rst := rfl
@[simp] theorem State.raiseIllegal_pending (s : State) : (s.raiseIllegal).pending = s.pending := rfl
@[simp] theorem State.raiseIllegal_reqValid (s : State) : (s.raiseIllegal).reqValid = s.reqValid := rfl
@[simp] theorem State.raiseIllegal_reqReady (s : State) : (s.raiseIllegal).reqReady = s.reqReady := rfl
@[simp] theorem State.raiseIllegal_reqCmd (s : State) : (s.raiseIllegal).reqCmd = s.reqCmd := rfl
@[simp] theorem State.raiseIllegal_reqA (s : State) : (s.raiseIllegal).reqA = s.reqA := rfl
@[simp] theorem State.raiseIllegal_rspValid (s : State) : (s.raiseIllegal).rspValid = true := rfl
@[simp] theorem State.raiseIllegal_rspReady (s : State) : (s.raiseIllegal).rspReady = s.rspReady := rfl
@[simp] theorem State.raiseIllegal_rspD (s : State) : (s.raiseIllegal).rspD = 0 := rfl
@[simp] theorem State.raiseIllegal_rspIll (s : State) : (s.raiseIllegal).rspIll = true := rfl
@[simp] theorem State.raiseIllegal_booted (s : State) : (s.raiseIllegal).booted = s.booted := rfl
@[simp] theorem State.raiseIllegal_program (s : State) : (s.raiseIllegal).program = s.program := rfl
@[simp] theorem State.raiseIllegal_received (s : State) : (s.raiseIllegal).received = s.received := rfl
@[simp] theorem State.raiseIllegal_sched (s : State) : (s.raiseIllegal).sched = s.sched := rfl
@[simp] theorem State.raiseIllegal_tick (s : State) : (s.raiseIllegal).tick = s.tick := rfl

/-! ### advance -/

@[simp] theorem State.advance_rst (s : State) : (s.advance).rst = s.choice.reset := rfl
@[simp] theorem State.advance_pending (s : State) : (s.advance).pending = s.nextPending := rfl
@[simp] theorem State.advance_reqValid (s : State) : (s.advance).reqValid = s.nextRequest.isSome := rfl
@[simp] theorem State.advance_reqReady (s : State) : (s.advance).reqReady = s.nextReqReady := rfl
@[simp] theorem State.advance_reqCmd (s : State) : (s.advance).reqCmd = (match s.nextRequest with | some r => r.cmd | none => Config.freeReqCmd s.tick) := rfl
@[simp] theorem State.advance_reqA (s : State) : (s.advance).reqA = (match s.nextRequest with | some r => r.a | none => Config.freeReqA s.tick) := rfl
@[simp] theorem State.advance_rspValid (s : State) : (s.advance).rspValid = s.holdsResponse := rfl
@[simp] theorem State.advance_rspReady (s : State) : (s.advance).rspReady = s.choice.rspReady := rfl
@[simp] theorem State.advance_rspD (s : State) : (s.advance).rspD = (if s.holdsResponse then s.rspD else Config.freeRspD s.tick) := rfl
@[simp] theorem State.advance_rspIll (s : State) : (s.advance).rspIll = (if s.holdsResponse then s.rspIll else Config.freeRspIll s.tick) := rfl
@[simp] theorem State.advance_booted (s : State) : (s.advance).booted = s.nextBooted := rfl
@[simp] theorem State.advance_program (s : State) : (s.advance).program = s.nextProgram := rfl
@[simp] theorem State.advance_received (s : State) : (s.advance).received = s.nextReceived := rfl
@[simp] theorem State.advance_sched (s : State) : (s.advance).sched = s.sched.tail := rfl
@[simp] theorem State.advance_tick (s : State) : (s.advance).tick = s.tick + 1 := rfl

/-! ### place -/

@[simp] theorem State.place_rst (s : State) (c : Word) : (s.place c).rst = false := rfl
@[simp] theorem State.place_pending (s : State) (c : Word) : (s.place c).pending = ⟨c, s.headOperand⟩ :: s.pending.tail := rfl
@[simp] theorem State.place_reqValid (s : State) (c : Word) : (s.place c).reqValid = s.reqValid := rfl
@[simp] theorem State.place_reqReady (s : State) (c : Word) : (s.place c).reqReady = s.reqReady := rfl
@[simp] theorem State.place_reqCmd (s : State) (c : Word) : (s.place c).reqCmd = s.reqCmd := rfl
@[simp] theorem State.place_reqA (s : State) (c : Word) : (s.place c).reqA = s.reqA := rfl
@[simp] theorem State.place_rspValid (s : State) (c : Word) : (s.place c).rspValid = false := rfl
@[simp] theorem State.place_rspReady (s : State) (c : Word) : (s.place c).rspReady = s.rspReady := rfl
@[simp] theorem State.place_rspD (s : State) (c : Word) : (s.place c).rspD = s.rspD := rfl
@[simp] theorem State.place_rspIll (s : State) (c : Word) : (s.place c).rspIll = s.rspIll := rfl
@[simp] theorem State.place_booted (s : State) (c : Word) : (s.place c).booted = s.booted := rfl
@[simp] theorem State.place_program (s : State) (c : Word) : (s.place c).program = s.program := rfl
@[simp] theorem State.place_received (s : State) (c : Word) : (s.place c).received = s.received := rfl
@[simp] theorem State.place_sched (s : State) (c : Word) : (s.place c).sched = { s.choice with reset := false, respond := true } :: s.sched.tail := rfl
@[simp] theorem State.place_tick (s : State) (c : Word) : (s.place c).tick = s.tick := rfl

@[simp] theorem State.place_choice (s : State) (c : Word) :
    (s.place c).choice = { s.choice with reset := false, respond := true } := rfl

/-! ### the state right after reset -/

@[simp] theorem State.reset_rst : State.reset.rst = false := rfl
@[simp] theorem State.reset_pending : State.reset.pending = [] := rfl
@[simp] theorem State.reset_reqValid : State.reset.reqValid = false := rfl
@[simp] theorem State.reset_rspValid : State.reset.rspValid = false := rfl
@[simp] theorem State.reset_rspReady : State.reset.rspReady = false := rfl
@[simp] theorem State.reset_booted : State.reset.booted = false := rfl
@[simp] theorem State.reset_program : State.reset.program = [] := rfl
@[simp] theorem State.reset_received : State.reset.received = [] := rfl
@[simp] theorem State.reset_sched : State.reset.sched = [] := rfl

end Sys2Proof.Machine
end

