-- ==== Sys2Proof/Laws/Exec.lean ====
section
/-! SUPPORT. What every meaning is: an answer with a result that is a function of the operand alone. The inversion of
`answer`, of `exec`, of `runHead` and of `step`, said once each. -/

namespace Sys2Proof.Machine

theorem answer_of_pending {f : Word → Word} {s : State} {r : Request} {rest : List Request}
    (h : s.pending = r :: rest) : answer f s = .next (s.respond (f r.a)) := by
  simp [answer, h]

theorem answer_of_empty {f : Word → Word} {s : State} (h : s.pending = []) : answer f s = .fault .noRequest := by
  simp [answer, h]

/-- Everything `answer` can do when it answers a next state. -/
theorem answer_next {f : Word → Word} {s t : State} (h : answer f s = .next t) :
    ∃ r rest, s.pending = r :: rest ∧ t = s.respond (f r.a) := by
  cases hp : s.pending with
  | nil => simp [answer_of_empty hp] at h
  | cons r rest =>
    rw [answer_of_pending hp] at h
    exact ⟨r, rest, rfl, by injection h with h; exact h.symm⟩

/-- The result word of each instruction, as a function of its operand word. -/
def resultOfInstr : Instr → Word → Word
  | .decBf16 => fun a => dec .bf16 (narrowOperand .bf16 a)
  | .decFp16 => fun a => dec .fp16 (narrowOperand .fp16 a)
  | .decE4m3fn => fun a => dec .e4m3fn (narrowOperand .e4m3fn a)
  | .decE4m3fnuz => fun a => dec .e4m3fnuz (narrowOperand .e4m3fnuz a)
  | .encBf16 => fun a => narrowResult (enc .bf16 (wideOperand a))
  | .encFp16 => fun a => narrowResult (enc .fp16 (wideOperand a))
  | .encE4m3fn => fun a => narrowResult (enc .e4m3fn (wideOperand a))
  | .encE4m3fnuz => fun a => narrowResult (enc .e4m3fnuz (wideOperand a))
  | .cvtBf16Bf16 => fun a => narrowResult (cvt .bf16 .bf16 (narrowOperand .bf16 a))
  | .cvtBf16Fp16 => fun a => narrowResult (cvt .bf16 .fp16 (narrowOperand .bf16 a))
  | .cvtBf16E4m3fn => fun a => narrowResult (cvt .bf16 .e4m3fn (narrowOperand .bf16 a))
  | .cvtBf16E4m3fnuz => fun a => narrowResult (cvt .bf16 .e4m3fnuz (narrowOperand .bf16 a))
  | .cvtFp16Bf16 => fun a => narrowResult (cvt .fp16 .bf16 (narrowOperand .fp16 a))
  | .cvtFp16Fp16 => fun a => narrowResult (cvt .fp16 .fp16 (narrowOperand .fp16 a))
  | .cvtFp16E4m3fn => fun a => narrowResult (cvt .fp16 .e4m3fn (narrowOperand .fp16 a))
  | .cvtFp16E4m3fnuz => fun a => narrowResult (cvt .fp16 .e4m3fnuz (narrowOperand .fp16 a))
  | .cvtE4m3fnBf16 => fun a => narrowResult (cvt .e4m3fn .bf16 (narrowOperand .e4m3fn a))
  | .cvtE4m3fnFp16 => fun a => narrowResult (cvt .e4m3fn .fp16 (narrowOperand .e4m3fn a))
  | .cvtE4m3fnE4m3fn => fun a => narrowResult (cvt .e4m3fn .e4m3fn (narrowOperand .e4m3fn a))
  | .cvtE4m3fnE4m3fnuz => fun a => narrowResult (cvt .e4m3fn .e4m3fnuz (narrowOperand .e4m3fn a))
  | .cvtE4m3fnuzBf16 => fun a => narrowResult (cvt .e4m3fnuz .bf16 (narrowOperand .e4m3fnuz a))
  | .cvtE4m3fnuzFp16 => fun a => narrowResult (cvt .e4m3fnuz .fp16 (narrowOperand .e4m3fnuz a))
  | .cvtE4m3fnuzE4m3fn => fun a => narrowResult (cvt .e4m3fnuz .e4m3fn (narrowOperand .e4m3fnuz a))
  | .cvtE4m3fnuzE4m3fnuz => fun a => narrowResult (cvt .e4m3fnuz .e4m3fnuz (narrowOperand .e4m3fnuz a))
  | .constBf16Minnorm => fun _ => narrowResult (const .bf16 .minnorm)
  | .constBf16Maxfin => fun _ => narrowResult (const .bf16 .maxfin)
  | .constBf16Eps => fun _ => narrowResult (const .bf16 .eps)
  | .constBf16Qnan => fun _ => narrowResult (const .bf16 .qnan)
  | .constBf16Pinf => fun _ => narrowResult (const .bf16 .pinf)
  | .constBf16Ninf => fun _ => narrowResult (const .bf16 .ninf)
  | .constFp16Minnorm => fun _ => narrowResult (const .fp16 .minnorm)
  | .constFp16Maxfin => fun _ => narrowResult (const .fp16 .maxfin)
  | .constFp16Eps => fun _ => narrowResult (const .fp16 .eps)
  | .constFp16Qnan => fun _ => narrowResult (const .fp16 .qnan)
  | .constFp16Pinf => fun _ => narrowResult (const .fp16 .pinf)
  | .constFp16Ninf => fun _ => narrowResult (const .fp16 .ninf)
  | .constE4m3fnMinnorm => fun _ => narrowResult (const .e4m3fn .minnorm)
  | .constE4m3fnMaxfin => fun _ => narrowResult (const .e4m3fn .maxfin)
  | .constE4m3fnEps => fun _ => narrowResult (const .e4m3fn .eps)
  | .constE4m3fnQnan => fun _ => narrowResult (const .e4m3fn .qnan)
  | .constE4m3fnuzMinnorm => fun _ => narrowResult (const .e4m3fnuz .minnorm)
  | .constE4m3fnuzMaxfin => fun _ => narrowResult (const .e4m3fnuz .maxfin)
  | .constE4m3fnuzEps => fun _ => narrowResult (const .e4m3fnuz .eps)
  | .constE4m3fnuzQnan => fun _ => narrowResult (const .e4m3fnuz .qnan)
  | .specqBf16 => fun a => narrowResult (specq .bf16 (narrowOperand .bf16 a))
  | .specqFp16 => fun a => narrowResult (specq .fp16 (narrowOperand .fp16 a))
  | .specqE4m3fn => fun a => narrowResult (specq .e4m3fn (narrowOperand .e4m3fn a))
  | .specqE4m3fnuz => fun a => narrowResult (specq .e4m3fnuz (narrowOperand .e4m3fnuz a))

/-- Every meaning is an answer. -/
theorem exec_eq_answer (i : Instr) (s : State) : exec i s = answer (resultOfInstr i) s := by
  cases i <;> rfl

theorem exec_of_pending (i : Instr) {s : State} {r : Request} {rest : List Request} (h : s.pending = r :: rest) :
    exec i s = .next (s.respond (resultOfInstr i r.a)) := by
  rw [exec_eq_answer, answer_of_pending h]

/-- Everything `exec` can do when it answers a next state. -/
theorem exec_next {i : Instr} {s t : State} (h : exec i s = .next t) :
    ∃ r rest, s.pending = r :: rest ∧ t = s.respond (resultOfInstr i r.a) := by
  rw [exec_eq_answer] at h
  exact answer_next h

theorem runCommand_ok {c : Word} {i : Instr} (h : decode c = .ok i) (s : State) : runCommand c s = exec i s := by
  simp [runCommand, h]

theorem runCommand_error {c : Word} {e : Reject} (h : decode c = .error e) (s : State) :
    runCommand c s = .next s.raiseIllegal := by
  simp [runCommand, h]

theorem runHead_of_pending {s : State} {r : Request} {rest : List Request} (h : s.pending = r :: rest) :
    runHead s = runCommand r.cmd s := by
  simp [runHead, h]

theorem runHead_of_empty {s : State} (h : s.pending = []) : runHead s = .next s := by
  simp [runHead, h]

/-- Running the oldest request offers some response and changes nothing else. -/
theorem runHead_offers {s : State} {r : Request} {rest : List Request} (h : s.pending = r :: rest) :
    ∃ d ill, runHead s = .next { s with rspValid := true, rspD := d, rspIll := ill } := by
  rw [runHead_of_pending h]
  cases hd : decode r.cmd with
  | ok i => exact ⟨_, false, by rw [runCommand_ok hd, exec_of_pending i h]; rfl⟩
  | error e => exact ⟨0, true, runCommand_error hd s⟩

theorem step_of_not_answers {s : State} (h : s.answers = false) : step s = .next s.advance := by
  simp [step, h]

theorem step_of_answers {s : State} (h : s.answers = true) : step s = runHead s.advance := by
  simp [step, h]

/-- Everything a step can do: the advanced state, or the advanced state with the response of its oldest request offered. -/
theorem step_cases {s t : State} (h : step s = .next t) :
    t = s.advance ∨
    (s.answers = true ∧ ∃ r rest d ill, s.advance.pending = r :: rest ∧ runHead s.advance = .next t ∧
      t = { s.advance with rspValid := true, rspD := d, rspIll := ill }) := by
  cases ha : s.answers with
  | false =>
    rw [step_of_not_answers ha] at h
    injection h with h
    exact .inl h.symm
  | true =>
    rw [step_of_answers ha] at h
    cases hp : s.advance.pending with
    | nil =>
      rw [runHead_of_empty hp] at h
      injection h with h
      exact .inl h.symm
    | cons r rest =>
      obtain ⟨d, ill, hr⟩ := runHead_offers hp
      have ht := hr.symm.trans h
      injection ht with ht
      exact .inr ⟨rfl, r, rest, d, ill, rfl, h, ht.symm⟩

/-- A step changes a field other than the response channel's as the advanced state does. -/
theorem step_frame {s t : State} (h : step s = .next t) :
    t.rst = s.choice.reset ∧ t.pending = s.nextPending ∧ t.reqValid = s.nextRequest.isSome ∧
    t.reqReady = s.nextReqReady ∧ t.reqCmd = s.advance.reqCmd ∧ t.reqA = s.advance.reqA ∧
    t.rspReady = s.choice.rspReady ∧ t.booted = s.nextBooted ∧ t.program = s.nextProgram ∧
    t.received = s.nextReceived ∧ t.sched = s.sched.tail ∧ t.tick = s.tick + 1 := by
  obtain rfl | ⟨-, r, rest, d, ill, -, -, rfl⟩ := step_cases h <;>
    exact ⟨rfl, rfl, rfl, rfl, rfl, rfl, rfl, rfl, rfl, rfl, rfl, rfl⟩

theorem choice_eq_choiceAt (s : State) : s.choice = s.choiceAt 0 := by
  cases hs : s.sched <;> simp [State.choice, State.choiceAt, hs]

/-- A cycle later, the choices of the coming cycles are the same ones. -/
theorem choiceAt_step {s t : State} (h : step s = .next t) (k : Nat) : t.choiceAt k = s.choiceAt (k + 1) := by
  obtain ⟨-, -, -, -, -, -, -, -, -, -, hs, ht⟩ := step_frame h
  have hk : t.sched[k]? = s.sched[k + 1]? := by rw [hs]; cases s.sched <;> simp
  simp only [State.choiceAt, hk, ht]
  cases s.sched[k + 1]? with
  | some c => rfl
  | none => simp only []; congr 1; omega

@[simp] theorem run_zero (s : State) : run 0 s = .next s := rfl

theorem core_run_succ (M : Host.Core) {s t : M.State} (h : M.step s = .next t) (n : Nat) :
    M.run (n + 1) s = M.run n t := by
  simp only [Host.Core.run, h]

/-- A run is a step and the rest of the run. -/
theorem run_succ {s t : State} (h : step s = .next t) (n : Nat) : run (n + 1) s = run n t :=
  core_run_succ Sys2Proof.core h n

/-- A format's code is its own. -/
theorem ofCode_eq_some {c : BitVec 4} {f : Fmt} (h : Fmt.ofCode c = some f) : c = f.code := by
  have all : ∀ c : BitVec 4, ∀ g ∈ [Fmt.bf16, .fp16, .e4m3fn, .e4m3fnuz], Fmt.ofCode c = some g → c = g.code := by decide
  exact all c f (by cases f <;> decide) h

/-- A selector's code is its own. -/
theorem selOfCode_eq_some {c : BitVec 4} {x : Sel} (h : Sel.ofCode c = some x) : c = x.code := by
  have all : ∀ c : BitVec 4, ∀ y ∈ [Sel.minnorm, .maxfin, .eps, .qnan, .pinf, .ninf],
      Sel.ofCode c = some y → c = y.code := by decide
  exact all c x (by cases x <;> decide) h

/-- An operation's code is its own. -/
theorem opOfCode_eq_some {c : BitVec 4} {o : Op} (h : Op.ofCode c = some o) : c = o.code := by
  have all : ∀ c : BitVec 4, ∀ p ∈ [Op.dec, .enc, .cvt, .const, .specq], Op.ofCode c = some p → c = p.code := by decide
  exact all c o (by cases o <;> decide) h

/-- A placed command is decoded and run by the very next step. -/
theorem step_place (s : State) (c : Word) : step (s.place c) = runCommand c (s.place c).advance := by
  have hr : (s.place c).resetting = false := rfl
  have hp : ∃ rest, (s.place c).advance.pending = ⟨c, s.headOperand⟩ :: rest :=
    ⟨s.pending.tail ++ (if (s.place c).accepts then [(s.place c).offered] else []), rfl⟩
  obtain ⟨rest, hp⟩ := hp
  rw [step_of_answers (by rfl), runHead_of_pending hp]

end Sys2Proof.Machine
end

