-- ==== Sys2Proof/Laws/Numeric.lean ====
section
/-! SUPPORT. The small lemmas of the numeric definitions: fields and their bounds, patterns and words from fields, classes of a
built word, bit lengths, and the comparison of magnitudes. -/

namespace Sys2Proof.Machine

/-! ### Fields -/

theorem field_lt (v hi lo : Nat) : field v hi lo < 2 ^ (hi + 1 - lo) := Nat.mod_lt _ (by positivity)

theorem field_low (v hi : Nat) : field v hi 0 = v % 2 ^ (hi + 1) := by simp [field]

theorem exp32_lt (w : Word) : exp32 w < 256 := field_lt _ _ _

theorem frac32_lt (w : Word) : frac32 w < 2 ^ 23 := field_lt _ _ _

theorem toNat_le_one (s : Bool) : s.toNat ≤ 1 := by cases s <;> decide

theorem decide_toNat_eq_one (s : Bool) : decide (s.toNat = 1) = s := by cases s <;> decide

theorem toNat_word32 (s : Bool) (e m : Nat) :
    (word32 s e m).toNat = s.toNat * 2 ^ 31 + e % 2 ^ 8 * 2 ^ 23 + m % 2 ^ 23 := by
  have := toNat_le_one s
  simp only [word32, BitVec.toNat_ofNat]
  omega

@[simp] theorem sign32_word32 (s : Bool) (e m : Nat) : sign32 (word32 s e m) = s := by
  have := toNat_le_one s
  have h : field (word32 s e m).toNat 31 31 = s.toNat := by
    simp only [field, toNat_word32]
    omega
  simp [sign32, h]

@[simp] theorem exp32_word32 (s : Bool) (e m : Nat) : exp32 (word32 s e m) = e % 2 ^ 8 := by
  simp only [exp32, field, toNat_word32]
  omega

@[simp] theorem frac32_word32 (s : Bool) (e m : Nat) : frac32 (word32 s e m) = m % 2 ^ 23 := by
  simp only [frac32, field, toNat_word32]
  omega

/-- A binary32 word is the word of its three fields. -/
theorem word32_fields (w : Word) : word32 (sign32 w) (exp32 w) (frac32 w) = w := by
  apply BitVec.eq_of_toNat_eq
  have hw := w.isLt
  have hs : (sign32 w).toNat = w.toNat / 2 ^ 31 := by
    have hlt : w.toNat / 2 ^ 31 < 2 := by omega
    have hf : field w.toNat 31 31 = w.toNat / 2 ^ 31 := by
      simp only [field]
      omega
    rw [sign32, hf]
    generalize w.toNat / 2 ^ 31 = x at hlt
    interval_cases x <;> rfl
  rw [toNat_word32, hs]
  simp only [exp32, frac32, field]
  omega

/-! ### The classes of a word built from fields -/

theorem unpack32_zero (s : Bool) : unpack32 (word32 s 0 0) = .zero s := by simp [unpack32]

theorem unpack32_subnormal (s : Bool) {m : Nat} (h : m ≠ 0) (hm : m < 2 ^ 23) :
    unpack32 (word32 s 0 m) = .fin s m (-149) := by
  simp only [unpack32, exp32_word32, frac32_word32, sign32_word32, Nat.mod_eq_of_lt hm]
  simp [h]

theorem unpack32_normal (s : Bool) {e m : Nat} (h0 : e ≠ 0) (h : e < 255) (hm : m < 2 ^ 23) :
    unpack32 (word32 s e m) = .fin s (2 ^ 23 + m) ((e : Int) - 150) := by
  have he : e % 2 ^ 8 = e := Nat.mod_eq_of_lt (by omega)
  simp only [unpack32, exp32_word32, frac32_word32, sign32_word32, he, Nat.mod_eq_of_lt hm]
  simp [h0, h.ne]

theorem unpack32_inf (s : Bool) : unpack32 (word32 s 255 0) = .inf s := by simp [unpack32]

theorem unpack32_nan (s : Bool) {m : Nat} (h : m ≠ 0) (hm : m < 2 ^ 23) : unpack32 (word32 s 255 m) = .nan s := by
  simp only [unpack32, exp32_word32, frac32_word32, sign32_word32, Nat.mod_eq_of_lt hm]
  simp [h]

/-! ### Patterns -/

theorem spec_width (f : Fmt) : f.spec.w = 1 + f.spec.e + f.spec.m := by cases f <;> rfl

theorem pat_lt (f : Fmt) (s : Bool) (e m : Nat) : f.pat s e m < 2 ^ f.spec.w := by
  have := toNat_le_one s
  cases f <;> simp only [Fmt.pat, Fmt.spec] <;> omega

@[simp] theorem signOf_pat (f : Fmt) (s : Bool) (e m : Nat) : f.signOf (f.pat s e m) = s := by
  have := toNat_le_one s
  have h : field (f.pat s e m) (f.spec.w - 1) (f.spec.w - 1) = s.toNat := by
    cases f <;> simp only [Fmt.pat, Fmt.spec, field] <;> omega
  simp [Fmt.signOf, h]

@[simp] theorem expOf_pat (f : Fmt) (s : Bool) (e m : Nat) : f.expOf (f.pat s e m) = e % 2 ^ f.spec.e := by
  cases f <;> simp only [Fmt.expOf, Fmt.pat, Fmt.spec, field] <;> omega

@[simp] theorem manOf_pat (f : Fmt) (s : Bool) (e m : Nat) : f.manOf (f.pat s e m) = m % 2 ^ f.spec.m := by
  cases f <;> simp only [Fmt.manOf, Fmt.pat, Fmt.spec, field] <;> omega

theorem expOf_lt (f : Fmt) (b : Nat) : f.expOf b < 2 ^ f.spec.e := by
  cases f <;> exact field_lt _ _ _

theorem manOf_lt (f : Fmt) (b : Nat) : f.manOf b < 2 ^ f.spec.m := by
  cases f <;> exact field_lt _ _ _

/-- A pattern of the format's width is the pattern of its three fields. -/
theorem pat_fields (f : Fmt) {b : Nat} (h : b < 2 ^ f.spec.w) : f.pat (f.signOf b) (f.expOf b) (f.manOf b) = b := by
  have hs : (f.signOf b).toNat = field b (f.spec.w - 1) (f.spec.w - 1) := by
    have : field b (f.spec.w - 1) (f.spec.w - 1) < 2 := by
      have := field_lt b (f.spec.w - 1) (f.spec.w - 1)
      simpa using this
    simp only [Fmt.signOf]
    interval_cases field b (f.spec.w - 1) (f.spec.w - 1) <;> rfl
  rw [Fmt.pat, hs]
  cases f <;> simp only [Fmt.expOf, Fmt.manOf, Fmt.spec, field] at * <;> omega

/-! ### Bit lengths and magnitudes -/

theorem bitlen_pos (n : Nat) : 0 < bitlen n := by simp [bitlen]

theorem two_pow_bitlen_le {n : Nat} (h : n ≠ 0) : 2 ^ (bitlen n - 1) ≤ n := by
  simpa [bitlen] using Nat.log2_self_le h

theorem lt_two_pow_bitlen (n : Nat) : n < 2 ^ bitlen n := by
  simpa [bitlen] using Nat.lt_log2_self (n := n)

/-- The scaled comparison is the comparison of the exact magnitudes. -/
theorem magGt_iff (sig : Nat) (q : Int) (sig' : Nat) (q' : Int) :
    magGt sig q sig' q' = true ↔ (sig' : ℚ) * 2 ^ q' < sig * 2 ^ q := by
  have two : (2 : ℚ) ≠ 0 := by norm_num
  have scale : ∀ (n : Nat) (x : Int), min q q' ≤ x →
      (n : ℚ) * 2 ^ x = ((n * 2 ^ (x - min q q').toNat : Nat) : ℚ) * 2 ^ (min q q') := by
    intro n x hx
    have hx' : ((x - min q q').toNat : Int) = x - min q q' := Int.toNat_of_nonneg (by omega)
    have : (2 : ℚ) ^ x = 2 ^ (x - min q q').toNat * 2 ^ (min q q') := by
      rw [← zpow_natCast, hx', ← zpow_add₀ two]
      congr 1
      omega
    rw [this]
    push_cast
    ring
  rw [scale sig q (min_le_left _ _), scale sig' q' (min_le_right _ _), magGt, decide_eq_true_iff,
    mul_lt_mul_iff_left₀ (by positivity), Nat.cast_lt]

/-! ### Rounding -/

theorem rne_of_nonpos {sig : Nat} {sh : Int} (h : sh ≤ 0) : rne sig sh = sig * 2 ^ (-sh).toNat := by
  simp [rne, h]

/-- Where bits are discarded, the rounded integer is one of the two neighbours, within half a unit, the even one at a tie. -/
theorem rne_of_pos (sig k : Nat) (hk : 0 < k) :
    (rne sig k * 2 ^ k ≤ sig + 2 ^ (k - 1) ∧ sig ≤ rne sig k * 2 ^ k + 2 ^ (k - 1)) ∧
    (rne sig k = sig / 2 ^ k ∨ rne sig k = sig / 2 ^ k + 1) ∧
    (sig % 2 ^ k = 2 ^ (k - 1) → rne sig k % 2 = 0) := by
  have hpow : 2 ^ k = 2 ^ (k - 1) + 2 ^ (k - 1) := by
    obtain ⟨j, rfl⟩ : ∃ j, k = j + 1 := ⟨k - 1, by omega⟩
    simp [Nat.pow_succ]
    omega
  have hdiv : 2 ^ k * (sig / 2 ^ k) + sig % 2 ^ k = sig := Nat.div_add_mod _ _
  have hlt : sig % 2 ^ k < 2 ^ k := Nat.mod_lt _ (by positivity)
  have hrem : sig - sig / 2 ^ k * 2 ^ k = sig % 2 ^ k := by rw [Nat.mul_comm]; omega
  have hsh : ¬ ((k : Int) ≤ 0) := by omega
  simp only [rne, hsh, if_false, Int.toNat_natCast, hrem]
  generalize 2 ^ (k - 1) = half at *
  generalize hd : 2 ^ k = d at *
  generalize hq : sig / d = q at *
  generalize sig % d = rem at *
  have hmul : (q + 1) * d = d * q + d := by ring
  have hmul' : q * d = d * q := by ring
  by_cases h : half < rem ∨ rem = half ∧ q % 2 = 1
  · rw [if_pos h, hmul]
    refine ⟨by omega, .inr rfl, fun he => by omega⟩
  · rw [if_neg h, hmul']
    refine ⟨by omega, .inl rfl, fun he => by omega⟩

end Sys2Proof.Machine
end

