-- ==== Sys2Proof/Laws/PerInstr.lean ====
section
/-! SUPPORT. The family Encoding: every instruction is well-formed, its word from the opcode map (30_encoding.md R87) decodes to
it, and the word's fields are those that R82 gives the instruction. One lemma per constructor. -/

namespace Sys2Proof.Laws.Encoding

/-- The word of the opcode map agrees with the fields and with the decoder. -/
def Statement (i : Instr) : Prop :=
  i.WellFormed ∧ decode (encode i) = .ok i ∧ Fields.ofWord (encode i) = i.fields ∧ i.fields.toWord = encode i

theorem decBf16 : Statement .decBf16 := ⟨by decide, rfl, by decide, by decide⟩
theorem decFp16 : Statement .decFp16 := ⟨by decide, rfl, by decide, by decide⟩
theorem decE4m3fn : Statement .decE4m3fn := ⟨by decide, rfl, by decide, by decide⟩
theorem decE4m3fnuz : Statement .decE4m3fnuz := ⟨by decide, rfl, by decide, by decide⟩
theorem encBf16 : Statement .encBf16 := ⟨by decide, rfl, by decide, by decide⟩
theorem encFp16 : Statement .encFp16 := ⟨by decide, rfl, by decide, by decide⟩
theorem encE4m3fn : Statement .encE4m3fn := ⟨by decide, rfl, by decide, by decide⟩
theorem encE4m3fnuz : Statement .encE4m3fnuz := ⟨by decide, rfl, by decide, by decide⟩
theorem cvtBf16Bf16 : Statement .cvtBf16Bf16 := ⟨by decide, rfl, by decide, by decide⟩
theorem cvtBf16Fp16 : Statement .cvtBf16Fp16 := ⟨by decide, rfl, by decide, by decide⟩
theorem cvtBf16E4m3fn : Statement .cvtBf16E4m3fn := ⟨by decide, rfl, by decide, by decide⟩
theorem cvtBf16E4m3fnuz : Statement .cvtBf16E4m3fnuz := ⟨by decide, rfl, by decide, by decide⟩
theorem cvtFp16Bf16 : Statement .cvtFp16Bf16 := ⟨by decide, rfl, by decide, by decide⟩
theorem cvtFp16Fp16 : Statement .cvtFp16Fp16 := ⟨by decide, rfl, by decide, by decide⟩
theorem cvtFp16E4m3fn : Statement .cvtFp16E4m3fn := ⟨by decide, rfl, by decide, by decide⟩
theorem cvtFp16E4m3fnuz : Statement .cvtFp16E4m3fnuz := ⟨by decide, rfl, by decide, by decide⟩
theorem cvtE4m3fnBf16 : Statement .cvtE4m3fnBf16 := ⟨by decide, rfl, by decide, by decide⟩
theorem cvtE4m3fnFp16 : Statement .cvtE4m3fnFp16 := ⟨by decide, rfl, by decide, by decide⟩
theorem cvtE4m3fnE4m3fn : Statement .cvtE4m3fnE4m3fn := ⟨by decide, rfl, by decide, by decide⟩
theorem cvtE4m3fnE4m3fnuz : Statement .cvtE4m3fnE4m3fnuz := ⟨by decide, rfl, by decide, by decide⟩
theorem cvtE4m3fnuzBf16 : Statement .cvtE4m3fnuzBf16 := ⟨by decide, rfl, by decide, by decide⟩
theorem cvtE4m3fnuzFp16 : Statement .cvtE4m3fnuzFp16 := ⟨by decide, rfl, by decide, by decide⟩
theorem cvtE4m3fnuzE4m3fn : Statement .cvtE4m3fnuzE4m3fn := ⟨by decide, rfl, by decide, by decide⟩
theorem cvtE4m3fnuzE4m3fnuz : Statement .cvtE4m3fnuzE4m3fnuz := ⟨by decide, rfl, by decide, by decide⟩
theorem constBf16Minnorm : Statement .constBf16Minnorm := ⟨by decide, rfl, by decide, by decide⟩
theorem constBf16Maxfin : Statement .constBf16Maxfin := ⟨by decide, rfl, by decide, by decide⟩
theorem constBf16Eps : Statement .constBf16Eps := ⟨by decide, rfl, by decide, by decide⟩
theorem constBf16Qnan : Statement .constBf16Qnan := ⟨by decide, rfl, by decide, by decide⟩
theorem constBf16Pinf : Statement .constBf16Pinf := ⟨by decide, rfl, by decide, by decide⟩
theorem constBf16Ninf : Statement .constBf16Ninf := ⟨by decide, rfl, by decide, by decide⟩
theorem constFp16Minnorm : Statement .constFp16Minnorm := ⟨by decide, rfl, by decide, by decide⟩
theorem constFp16Maxfin : Statement .constFp16Maxfin := ⟨by decide, rfl, by decide, by decide⟩
theorem constFp16Eps : Statement .constFp16Eps := ⟨by decide, rfl, by decide, by decide⟩
theorem constFp16Qnan : Statement .constFp16Qnan := ⟨by decide, rfl, by decide, by decide⟩
theorem constFp16Pinf : Statement .constFp16Pinf := ⟨by decide, rfl, by decide, by decide⟩
theorem constFp16Ninf : Statement .constFp16Ninf := ⟨by decide, rfl, by decide, by decide⟩
theorem constE4m3fnMinnorm : Statement .constE4m3fnMinnorm := ⟨by decide, rfl, by decide, by decide⟩
theorem constE4m3fnMaxfin : Statement .constE4m3fnMaxfin := ⟨by decide, rfl, by decide, by decide⟩
theorem constE4m3fnEps : Statement .constE4m3fnEps := ⟨by decide, rfl, by decide, by decide⟩
theorem constE4m3fnQnan : Statement .constE4m3fnQnan := ⟨by decide, rfl, by decide, by decide⟩
theorem constE4m3fnuzMinnorm : Statement .constE4m3fnuzMinnorm := ⟨by decide, rfl, by decide, by decide⟩
theorem constE4m3fnuzMaxfin : Statement .constE4m3fnuzMaxfin := ⟨by decide, rfl, by decide, by decide⟩
theorem constE4m3fnuzEps : Statement .constE4m3fnuzEps := ⟨by decide, rfl, by decide, by decide⟩
theorem constE4m3fnuzQnan : Statement .constE4m3fnuzQnan := ⟨by decide, rfl, by decide, by decide⟩
theorem specqBf16 : Statement .specqBf16 := ⟨by decide, rfl, by decide, by decide⟩
theorem specqFp16 : Statement .specqFp16 := ⟨by decide, rfl, by decide, by decide⟩
theorem specqE4m3fn : Statement .specqE4m3fn := ⟨by decide, rfl, by decide, by decide⟩
theorem specqE4m3fnuz : Statement .specqE4m3fnuz := ⟨by decide, rfl, by decide, by decide⟩

end Sys2Proof.Laws.Encoding
end

