-- ==== Sys2Proof/Machine/Assembler.lean ====
section
/-! DEFINITION. The assembler's notation for host listings (30_encoding.md R82): mnemonics without regard to case, an operand
word, and for ENC a decimal literal that is refused unless binary32 represents it exactly. There are no pseudo-instructions
(R83). A listing is outside the hardware; nothing in the machine uses this file. -/

namespace Sys2Proof.Machine

/-- The DEC commands (R87). -/
def decs : List Instr :=
  [.decBf16, .decFp16, .decE4m3fn, .decE4m3fnuz]

/-- The ENC commands (R87). -/
def encs : List Instr :=
  [.encBf16, .encFp16, .encE4m3fn, .encE4m3fnuz]

/-- The CVT commands (R87). -/
def cvts : List Instr :=
  [.cvtBf16Bf16, .cvtBf16Fp16, .cvtBf16E4m3fn, .cvtBf16E4m3fnuz, .cvtFp16Bf16, .cvtFp16Fp16,
   .cvtFp16E4m3fn, .cvtFp16E4m3fnuz, .cvtE4m3fnBf16, .cvtE4m3fnFp16, .cvtE4m3fnE4m3fn,
   .cvtE4m3fnE4m3fnuz, .cvtE4m3fnuzBf16, .cvtE4m3fnuzFp16, .cvtE4m3fnuzE4m3fn, .cvtE4m3fnuzE4m3fnuz]

/-- The CONST commands (R87). -/
def consts : List Instr :=
  [.constBf16Minnorm, .constBf16Maxfin, .constBf16Eps, .constBf16Qnan, .constBf16Pinf, .constBf16Ninf,
   .constFp16Minnorm, .constFp16Maxfin, .constFp16Eps, .constFp16Qnan, .constFp16Pinf, .constFp16Ninf,
   .constE4m3fnMinnorm, .constE4m3fnMaxfin, .constE4m3fnEps, .constE4m3fnQnan, .constE4m3fnuzMinnorm,
   .constE4m3fnuzMaxfin, .constE4m3fnuzEps, .constE4m3fnuzQnan]

/-- The SPECQ commands (R87). -/
def specqs : List Instr :=
  [.specqBf16, .specqFp16, .specqE4m3fn, .specqE4m3fnuz]

/-- The 48 instructions (R87). -/
def allInstrs : List Instr := decs ++ encs ++ cvts ++ consts ++ specqs

/-- The instruction a mnemonic names; case does not matter (R82). -/
def ofMnemonic (name : String) : Option Instr := allInstrs.find? (fun i => i.mnemonic.toList == name.toList.map Char.toUpper)

/-- How often 2 divides `n`, counted at most `fuel` times. -/
def trailingZeros : Nat → Nat → Nat
  | 0, _ => 0
  | fuel + 1, n => if n % 2 = 0 then trailingZeros fuel (n / 2) + 1 else 0

/-- The binary32 word of `(-1)^s × n × 2^q`, or none if binary32 does not represent it exactly (R81, R82). -/
def exactWord (s : Bool) (n : Nat) (q : Int) : Option Word :=
  if n = 0 then some (word32 s 0 0)
  else
    let z := trailingZeros (bitlen n) n
    let sig := n / 2 ^ z
    if bitlen sig ≤ 24 ∧ (bitlen sig - 1 : Nat) + (q + z) ≤ 127 ∧ -149 ≤ q + z then some (pack32 s sig (q + z))
    else none

/-- An operand as a listing writes it (R82). `decimal s n x` is the literal `(-1)^s × n × 10^x`. -/
inductive Literal where
  | hex (a : Word)
  | decimal (s : Bool) (n : Nat) (x : Int)
  deriving DecidableEq, Repr

/-- The operand word of a decimal literal, none where binary32 does not represent it exactly (R82). -/
def decimalWord (s : Bool) (n : Nat) (x : Int) : Option Word :=
  if 0 ≤ x then exactWord s (n * 10 ^ x.toNat) 0
  else if n % 5 ^ (-x).toNat = 0 then exactWord s (n / 5 ^ (-x).toNat) x
  else none

/-- The command word and operand of a line `mnemonic <a>` (R82): CONST takes no operand, the others take one, and only ENC
takes a decimal. None where the assembler refuses the line. -/
def assemble (name : String) (arg : Option Literal) : Option (Word × Option Word) :=
  match ofMnemonic name with
  | none => none
  | some i =>
    match decide (i ∈ consts), arg with
    | true,  none          => some (encode i, none)
    | true,  some _        => none
    | false, none          => none
    | false, some (.hex a) => some (encode i, some a)
    | false, some (.decimal s n x) =>
      if i ∈ encs then (decimalWord s n x).map (fun a => (encode i, some a)) else none

end Sys2Proof.Machine
end

