-- ==== Sys2Proof/Tests/Slice0.lean ====
section
/-! SUPPORT. Tests of the model against the spec's own examples (95_test_vectors.md and the tables inside the rules), the smoke
test of WellFormed, and the witnesses of the statements' hypotheses. -/

namespace Sys2Proof.Tests

open Machine

/-! ### WellFormed: one ill-formed term for each check of R68 -/

theorem smoke_legal : (⟨0, 3, 0, 0, 0⟩ : Fields).WellFormed := by decide
theorem smoke_reserved_bits : ¬ (⟨0, 0, 0, 0, 1⟩ : Fields).WellFormed := by decide
theorem smoke_reserved_op : ¬ (⟨5, 0, 0, 0, 0⟩ : Fields).WellFormed := by decide
theorem smoke_reserved_format : ¬ (⟨0, 4, 0, 0, 0⟩ : Fields).WellFormed := by decide
theorem smoke_dec_with_fb : ¬ (⟨0, 0, 1, 0, 0⟩ : Fields).WellFormed := by decide
theorem smoke_enc_with_sel : ¬ (⟨1, 0, 0, 1, 0⟩ : Fields).WellFormed := by decide
theorem smoke_specq_with_fb : ¬ (⟨4, 0, 1, 0, 0⟩ : Fields).WellFormed := by decide
theorem smoke_cvt_reserved_fb : ¬ (⟨2, 0, 4, 0, 0⟩ : Fields).WellFormed := by decide
theorem smoke_cvt_with_sel : ¬ (⟨2, 0, 0, 1, 0⟩ : Fields).WellFormed := by decide
theorem smoke_const_with_fb : ¬ (⟨3, 0, 1, 0, 0⟩ : Fields).WellFormed := by decide
theorem smoke_const_reserved_sel : ¬ (⟨3, 0, 0, 6, 0⟩ : Fields).WellFormed := by decide
theorem smoke_const_no_infinity : ¬ (⟨3, 2, 0, 4, 0⟩ : Fields).WellFormed := by decide

/-! ### Decode: every row of the opcode map (R87), one word of each family bit by bit, the illegal words of 95 section 2.6 -/

theorem test_decode_dec_words :
    [0x00000000, 0x00000010, 0x00000020, 0x00000030].map (decode ·)
    = [.decBf16, .decFp16, .decE4m3fn, .decE4m3fnuz].map Except.ok := by decide

theorem test_decode_enc_words :
    [0x00000001, 0x00000011, 0x00000021, 0x00000031].map (decode ·)
    = [.encBf16, .encFp16, .encE4m3fn, .encE4m3fnuz].map Except.ok := by decide

theorem test_decode_cvt_words :
    [0x00000002, 0x00000102, 0x00000202, 0x00000302, 0x00000012, 0x00000112, 0x00000212, 0x00000312,
     0x00000022, 0x00000122, 0x00000222, 0x00000322, 0x00000032, 0x00000132, 0x00000232, 0x00000332].map (decode ·)
    = [.cvtBf16Bf16, .cvtBf16Fp16, .cvtBf16E4m3fn, .cvtBf16E4m3fnuz, .cvtFp16Bf16, .cvtFp16Fp16,
     .cvtFp16E4m3fn, .cvtFp16E4m3fnuz, .cvtE4m3fnBf16, .cvtE4m3fnFp16, .cvtE4m3fnE4m3fn,
     .cvtE4m3fnE4m3fnuz, .cvtE4m3fnuzBf16, .cvtE4m3fnuzFp16, .cvtE4m3fnuzE4m3fn, .cvtE4m3fnuzE4m3fnuz].map Except.ok := by decide

theorem test_decode_const_words :
    [0x00000003, 0x00001003, 0x00002003, 0x00003003, 0x00004003, 0x00005003, 0x00000013, 0x00001013,
     0x00002013, 0x00003013, 0x00004013, 0x00005013, 0x00000023, 0x00001023, 0x00002023, 0x00003023,
     0x00000033, 0x00001033, 0x00002033, 0x00003033].map (decode ·)
    = [.constBf16Minnorm, .constBf16Maxfin, .constBf16Eps, .constBf16Qnan, .constBf16Pinf, .constBf16Ninf,
     .constFp16Minnorm, .constFp16Maxfin, .constFp16Eps, .constFp16Qnan, .constFp16Pinf, .constFp16Ninf,
     .constE4m3fnMinnorm, .constE4m3fnMaxfin, .constE4m3fnEps, .constE4m3fnQnan, .constE4m3fnuzMinnorm,
     .constE4m3fnuzMaxfin, .constE4m3fnuzEps, .constE4m3fnuzQnan].map Except.ok := by decide

theorem test_decode_specq_words :
    [0x00000004, 0x00000014, 0x00000024, 0x00000034].map (decode ·)
    = [.specqBf16, .specqFp16, .specqE4m3fn, .specqE4m3fnuz].map Except.ok := by decide

-- SEL = 0000, FB = 0010, FA = 0001, OP = 0010: CVT.FP16.E4M3FN; the other four families alike (R60, R61, R66, R67).
theorem test_decode_bits :
    [0b0000_0000_0000_0000_0000_0000_0011_0000, 0b0000_0000_0000_0000_0000_0000_0001_0001,
     0b0000_0000_0000_0000_0000_0010_0001_0010, 0b0000_0000_0000_0000_0101_0000_0001_0011,
     0b0000_0000_0000_0000_0000_0000_0010_0100].map (decode ·)
    = [.decE4m3fnuz, .encFp16, .cvtFp16E4m3fn, .constFp16Ninf, .specqE4m3fn].map Except.ok := by decide

theorem test_illegal_words :
    [0x00000005, 0x0000000F, 0x00000040, 0x00000051, 0x000000F0, 0x00000402, 0x00000100, 0x00000101,
     0x00001000, 0x00001002, 0x00001004, 0x00000103, 0x00006003, 0x0000F013, 0x00004023, 0x00005023,
     0x00004033, 0x00005033, 0x00010000, 0x80000001, 0xFFFFFFFF].map (decode ·)
    = [.reservedOp, .reservedOp, .reservedFormat, .reservedFormat, .reservedFormat, .reservedFormat,
     .nonzeroFb, .nonzeroFb, .nonzeroSel, .nonzeroSel, .nonzeroSel, .nonzeroFb, .reservedSel,
     .reservedSel, .noInfinity, .noInfinity, .noInfinity, .noInfinity, .nonzeroRsvd, .nonzeroRsvd,
     .nonzeroRsvd].map Except.error := by decide

theorem test_decode_bytes_little :
    decodeBytes .little [0x12, 0x02, 0x00, 0x00, 0x99] = .ok (.cvtFp16E4m3fn, [0x99]) := by decide
theorem test_decode_bytes_big :
    decodeBytes .big [0x00, 0x00, 0x02, 0x12] = .ok (.cvtFp16E4m3fn, []) := by decide
theorem test_decode_bytes_short : decodeBytes .big [0x00, 0x00, 0x02] = .error .truncated := by decide
theorem test_table_word : decodeTableWord 32 0x5013 = some .constFp16Ninf := by decide

/-! ### One step of each instruction, with the vectors of 95 section 2 and of the rules' tables -/

/-- The response that the next step offers to a request `(cmd, a)` at the head of `pending`. -/
def runOn (cmd : Nat) (a : Word) : Option Response :=
  match step (({ State.reset with pending := [⟨0, a⟩] } : State).withFetchWord 32 cmd) with
  | .next t => if t.rspValid then some ⟨t.rspD, t.rspIll⟩ else none
  | _       => none

theorem test_decBf16 : runOn 0x00000000 0xABCD7F81 = some ⟨0x7F810000, false⟩ := by decide
theorem test_decFp16 : runOn 0x00000010 0xFFFF0001 = some ⟨0x33800000, false⟩ ∧ runOn 0x00000010 0x7C01 = some ⟨0x7F802000, false⟩ := by decide
theorem test_decE4m3fn : runOn 0x00000020 0x7E = some ⟨0x43E00000, false⟩ ∧ runOn 0x00000020 0xFF = some ⟨0xFFF00000, false⟩ := by decide
theorem test_decE4m3fnuz : runOn 0x00000030 0xFFFFFF80 = some ⟨0x7FC00000, false⟩ ∧ runOn 0x00000030 0x81 = some ⟨0xBA800000, false⟩ := by decide
theorem test_encBf16 : runOn 0x00000001 0x007FFFFF = some ⟨0x0080, false⟩ ∧ runOn 0x00000001 0x7F7F8000 = some ⟨0x7F80, false⟩ := by decide
theorem test_encFp16 : runOn 0x00000011 0x477FEFFF = some ⟨0x7BFF, false⟩ ∧ runOn 0x00000011 0xB3000000 = some ⟨0x8000, false⟩ := by decide
theorem test_encE4m3fn : runOn 0x00000021 0x43D80000 = some ⟨0x7E, false⟩ ∧ runOn 0x00000021 0xFFFFFFFF = some ⟨0x7F, false⟩ := by decide
theorem test_encE4m3fnuz : runOn 0x00000031 0xBA000000 = some ⟨0x00, false⟩ ∧ runOn 0x00000031 0x43680000 = some ⟨0x7E, false⟩ := by decide
theorem test_cvtBf16Bf16 : runOn 0x00000002 0xFFC1 = some ⟨0x7FC0, false⟩ := by decide
theorem test_cvtBf16Fp16 : runOn 0x00000102 0x477F = some ⟨0x7BF8, false⟩ := by decide
theorem test_cvtBf16E4m3fn : runOn 0x00000202 0x3A81 = some ⟨0x01, false⟩ := by decide
theorem test_cvtBf16E4m3fnuz : runOn 0x00000302 0xBA01 = some ⟨0x81, false⟩ := by decide
theorem test_cvtFp16Bf16 : runOn 0x00000012 0x7BFF = some ⟨0x4780, false⟩ := by decide
theorem test_cvtFp16Fp16 : runOn 0x00000112 0x7C01 = some ⟨0x7E00, false⟩ := by decide
theorem test_cvtFp16E4m3fn : runOn 0x00000212 0x5BC0 = some ⟨0x78, false⟩ := by decide
theorem test_cvtFp16E4m3fnuz : runOn 0x00000312 0x8000 = some ⟨0x00, false⟩ := by decide
theorem test_cvtE4m3fnBf16 : runOn 0x00000022 0xFE = some ⟨0xC3E0, false⟩ := by decide
theorem test_cvtE4m3fnFp16 : runOn 0x00000122 0x01 = some ⟨0x1800, false⟩ := by decide
theorem test_cvtE4m3fnE4m3fn : runOn 0x00000222 0xFF = some ⟨0x7F, false⟩ := by decide
theorem test_cvtE4m3fnE4m3fnuz : runOn 0x00000322 0x77 = some ⟨0x7F, false⟩ := by decide
theorem test_cvtE4m3fnuzBf16 : runOn 0x00000032 0x81 = some ⟨0xBA80, false⟩ := by decide
theorem test_cvtE4m3fnuzFp16 : runOn 0x00000132 0x08 = some ⟨0x2000, false⟩ := by decide
theorem test_cvtE4m3fnuzE4m3fn : runOn 0x00000232 0x09 = some ⟨0x04, false⟩ := by decide
theorem test_cvtE4m3fnuzE4m3fnuz : runOn 0x00000332 0x80 = some ⟨0x80, false⟩ := by decide
theorem test_constBf16Minnorm : runOn 0x00000003 0xDEADBEEF = some ⟨0x0080, false⟩ := by decide
theorem test_constBf16Maxfin : runOn 0x00001003 0xDEADBEEF = some ⟨0x7F7F, false⟩ := by decide
theorem test_constBf16Eps : runOn 0x00002003 0xDEADBEEF = some ⟨0x3C00, false⟩ := by decide
theorem test_constBf16Qnan : runOn 0x00003003 0xDEADBEEF = some ⟨0x7FC0, false⟩ := by decide
theorem test_constBf16Pinf : runOn 0x00004003 0xDEADBEEF = some ⟨0x7F80, false⟩ := by decide
theorem test_constBf16Ninf : runOn 0x00005003 0xDEADBEEF = some ⟨0xFF80, false⟩ := by decide
theorem test_constFp16Minnorm : runOn 0x00000013 0xDEADBEEF = some ⟨0x0400, false⟩ := by decide
theorem test_constFp16Maxfin : runOn 0x00001013 0xDEADBEEF = some ⟨0x7BFF, false⟩ := by decide
theorem test_constFp16Eps : runOn 0x00002013 0xDEADBEEF = some ⟨0x1400, false⟩ := by decide
theorem test_constFp16Qnan : runOn 0x00003013 0xDEADBEEF = some ⟨0x7E00, false⟩ := by decide
theorem test_constFp16Pinf : runOn 0x00004013 0xDEADBEEF = some ⟨0x7C00, false⟩ := by decide
theorem test_constFp16Ninf : runOn 0x00005013 0xDEADBEEF = some ⟨0xFC00, false⟩ := by decide
theorem test_constE4m3fnMinnorm : runOn 0x00000023 0xDEADBEEF = some ⟨0x08, false⟩ := by decide
theorem test_constE4m3fnMaxfin : runOn 0x00001023 0xDEADBEEF = some ⟨0x7E, false⟩ := by decide
theorem test_constE4m3fnEps : runOn 0x00002023 0xDEADBEEF = some ⟨0x20, false⟩ := by decide
theorem test_constE4m3fnQnan : runOn 0x00003023 0xDEADBEEF = some ⟨0x7F, false⟩ := by decide
theorem test_constE4m3fnuzMinnorm : runOn 0x00000033 0xDEADBEEF = some ⟨0x08, false⟩ := by decide
theorem test_constE4m3fnuzMaxfin : runOn 0x00001033 0xDEADBEEF = some ⟨0x7F, false⟩ := by decide
theorem test_constE4m3fnuzEps : runOn 0x00002033 0xDEADBEEF = some ⟨0x28, false⟩ := by decide
theorem test_constE4m3fnuzQnan : runOn 0x00003033 0xDEADBEEF = some ⟨0x80, false⟩ := by decide
theorem test_specqBf16 : runOn 0x00000004 0xFFFF7F80 = some ⟨0x6, false⟩ := by decide
theorem test_specqFp16 : runOn 0x00000014 0xABCD7E00 = some ⟨0x7, false⟩ := by decide
theorem test_specqE4m3fn : runOn 0x00000024 0x78 = some ⟨0x0, false⟩ := by decide
theorem test_specqE4m3fnuz : runOn 0x00000034 0x80 = some ⟨0x1, false⟩ := by decide

theorem test_illegal_command : runOn 0x00004023 0x12345678 = some ⟨0, true⟩ ∧ runOn 0x00000005 0x3F800000 = some ⟨0, true⟩ := by
  decide

/-- The first step after reset with nothing placed in `pending` but the table's word. -/
theorem test_first_step_after_reset :
    (match step (State.reset.withFetchWord 32 0x1013) with
      | .next t => decide (t.rspD = 0x7BFF ∧ t.rspValid = true ∧ t.rspIll = false)
      | _ => false) = true := by
  decide

/-! ### The tables that statements are made of, at the boundaries of their clauses -/

theorem test_decFp16Table :
    [0x7C00, 0xFC00, 0x7C01, 0xFFFF, 0x0000, 0x8000, 0x0001, 0x03FF, 0x0400, 0x7BFF].map decFp16Table =
    [0x7F800000, 0xFF800000, 0x7F802000, 0xFFFFE000, 0, 0x80000000, 0x33800000, 0x387FC000, 0x38800000, 0x477FE000] := by
  decide
theorem test_decE4m3fnTable :
    [0x7F, 0xFF, 0x78, 0x7E, 0x00, 0x80, 0x01, 0x07, 0x08, 0x70].map decE4m3fnTable =
    [0x7FF00000, 0xFFF00000, 0x43800000, 0x43E00000, 0, 0x80000000, 0x3B000000, 0x3C600000, 0x3C800000, 0x43000000] := by
  decide
theorem test_decE4m3fnuzTable :
    [0x80, 0x00, 0x01, 0x81, 0x07, 0x08, 0x7F, 0xFF].map decE4m3fnuzTable =
    [0x7FC00000, 0, 0x3A800000, 0xBA800000, 0x3BE00000, 0x3C000000, 0x43700000, 0xC3700000] := by
  decide
theorem test_encBf16Formula :
    [0x7F800001, 0xFFC00001, 0x7F800000, 0xFF800000, 0x7F7F8000, 0x7F7F7FFF, 0x00008000, 0x00008001, 0x807FFFFF].map
      encBf16Formula = [0x7FC0, 0x7FC0, 0x7F80, 0xFF80, 0x7F80, 0x7F7F, 0, 1, 0x8080] := by
  decide
theorem test_e4m3fnToE4m3fnuz :
    [0x7F, 0xFF, 0x78, 0x7E, 0xFE, 0x80, 0x00, 0x01, 0x77, 0x38].map e4m3fnToE4m3fnuz =
    [0x80, 0x80, 0x7F, 0x7F, 0xFF, 0, 0, 0x02, 0x7F, 0x40] := by
  decide
theorem test_e4m3fnuzToE4m3fn :
    [0x80, 0x01, 0x81, 0x03, 0x09, 0x0A, 0x40, 0x7F].map e4m3fnuzToE4m3fn =
    [0x7F, 0, 0x80, 0x02, 0x04, 0x05, 0x38, 0x77] := by
  decide
theorem test_specqIeeeResult :
    specqIeeeResult 8 254 3 = 4 ∧ specqIeeeResult 8 255 0 = 6 ∧ specqIeeeResult 8 255 1 = 7 ∧
    specqIeeeResult 5 30 0 = 4 ∧ specqIeeeResult 5 31 0 = 6 ∧ specqIeeeResult 5 31 1023 = 7 := by
  decide
theorem test_assemble :
    assemble "enc.fp16" (some (.decimal false 15 (-1))) = some (0x11, some 0x3FC00000) ∧
    decimalWord false 1 (-1) = none := by
  decide

/-! ### One clock cycle -/

/-- A choice of a cycle without reset. -/
def quietCycle : CycleChoice where
  reset := false
  offer := true
  rspReady := true
  ready := true
  respond := false

/-- A cycle in which a request is accepted and a response delivered at its end. -/
def busy : State :=
  { State.reset with
    pending := [⟨0x10, 0x3C00⟩], reqValid := true, reqReady := true, reqCmd := 0x31, reqA := 0xBA000000
    rspValid := true, rspReady := true, rspD := 0x3F800000, rspIll := false
    booted := true, program := [⟨0x100, 0⟩], sched := [quietCycle] }

theorem test_accept_appends_delivery_removes :
    (busy.advance).pending = [⟨0x31, 0xBA000000⟩] ∧ (busy.advance).received = [⟨0x3F800000, false⟩] ∧
    (busy.advance).reqValid = true ∧ (busy.advance).reqCmd = 0x100 ∧ (busy.advance).program = [] := by
  decide

theorem test_held_request_and_response :
    let s := { busy with reqReady := false, rspReady := false }
    s.advance.reqValid = true ∧ s.advance.reqCmd = 0x31 ∧ s.advance.program = [⟨0x100, 0⟩] ∧
    s.advance.rspValid = true ∧ s.advance.rspD = 0x3F800000 ∧ s.advance.pending = [⟨0x10, 0x3C00⟩] := by
  decide

theorem test_reset_discards :
    let s := { busy with sched := [{ quietCycle with reset := true, respond := true }] }
    s.advance.pending = [] ∧ s.advance.rspValid = false ∧ s.advance.reqReady = false ∧ s.answers = false := by
  decide

theorem test_host_waits_for_ready :
    ({ busy with booted := false, reqReady := false, reqValid := false } : State).advance.reqValid = false := by
  decide

/-! ### Witnesses: every statement with hypotheses has a state and operands that meet all of them -/

/-- One pending request, nothing offered, and a cycle to come in which the FFC answers. -/
def loaded (cmd a : Word) : State :=
  { State.reset with pending := [⟨cmd, a⟩], reqReady := false, sched := [{ quietCycle with respond := true }] }

/-- For every statement about an instruction's answer (`Answers`, NaNDecoding, InfinityEncoding and the like): a pending
request, with any command word and operand. -/
theorem witness_pending (cmd a : Word) : (loaded cmd a).pending = ⟨cmd, a⟩ :: [] := rfl

theorem one_le_maxOutstanding : 1 ≤ Config.maxOutstanding := Nat.le_add_left 1 _

/-- StepKeepsTheMachineInvariant, StepKeepsTheOrderOfResponses. -/
theorem witness_inv (cmd a : Word) : (loaded cmd a).Inv where
  depth := one_le_maxOutstanding
  room := by simp [loaded]
  quiet := by simp [loaded]
  answered := by simp [loaded]

/-- A state offering the response of its oldest request meets the invariant too. -/
theorem witness_inv_answered : ({ loaded 0x1013 0 with rspValid := true, rspD := 0x7BFF, rspIll := false } : State).Inv where
  depth := one_le_maxOutstanding
  room := by simp [loaded]
  quiet := by simp [loaded]
  answered := fun _ => ⟨_, _, rfl, by decide⟩

/-- A state in reset meets it. -/
theorem witness_inv_in_reset : ({ State.reset with rst := true, reqReady := false } : State).Inv where
  depth := Nat.zero_le _
  room := by simp
  quiet := by simp
  answered := by simp

/-- StepRunsDecodedCommand, first clause; ExecChangesOnlyTheResponse. -/
theorem witness_step_runs_instruction :
    (loaded 0x1013 0).answers = true ∧ (loaded 0x1013 0).advance.pending = [⟨0x1013, 0⟩] ∧
    decode 0x1013 = .ok .constFp16Maxfin ∧ ∃ t, step (loaded 0x1013 0) = .next t :=
  ⟨by decide, by decide, by decide, _, rfl⟩
/-- StepRunsDecodedCommand, second clause; IllegalCommandIsFlaggedAndHarmless. -/
theorem witness_step_runs_illegal :
    (loaded 5 0).answers = true ∧ (loaded 5 0).advance.pending = [⟨5, 0⟩] ∧ legal 5 = false ∧
    decode 5 = .error .reservedOp := by
  decide
/-- StepRunsDecodedCommand, third and fourth clauses. -/
theorem witness_step_idle :
    ({ loaded 5 0 with pending := [] } : State).answers = true ∧
    ({ loaded 5 0 with pending := [] } : State).advance.pending = [] ∧
    ({ loaded 5 0 with sched := [quietCycle] } : State).answers = false := by
  decide
/-- ClockEdgeMovesRequestsAndResponses, and the step of HostRaisesItsProgramInOrder that raises a request. -/
theorem witness_clock_edge :
    busy.rst = false ∧ busy.choice.reset = false ∧ busy.rspValid = true ∧ busy.rspReady = true ∧
    busy.reqValid = true ∧ busy.reqReady = true ∧ ∃ t, step busy = .next t :=
  ⟨rfl, rfl, rfl, rfl, rfl, rfl, _, rfl⟩
/-- HandshakeSignalsAreHeld, first two clauses. -/
theorem witness_held :
    let s := { busy with reqReady := false, rspReady := false }
    s.reqValid = true ∧ s.reqReady = false ∧ s.rspValid = true ∧ s.rspReady = false ∧ s.rst = false ∧
    ∃ t, step s = .next t ∧ t.rst = false :=
  ⟨rfl, rfl, rfl, rfl, rfl, _, rfl, rfl⟩
/-- HandshakeSignalsAreHeld, third clause: full depth in the next cycle. -/
theorem witness_full_depth :
    ∃ s t : State, step s = .next t ∧ t.pending.length = Config.maxOutstanding :=
  ⟨{ State.reset with pending := List.replicate Config.maxOutstanding ⟨0, 0⟩, sched := [quietCycle] }, _,
    step_of_not_answers rfl, by
      show ((List.replicate Config.maxOutstanding (⟨0, 0⟩ : Request)) ++ []).length = Config.maxOutstanding
      simp⟩
/-- ResetDiscardsAndSilences, and the reset clause of StepKeepsTheOrderOfResponses. -/
theorem witness_reset :
    (∃ t, step { busy with sched := [{ quietCycle with reset := true }] } = .next t ∧ t.rst = true) ∧
    (∃ t, step { busy with rst := true } = .next t) :=
  ⟨⟨_, rfl, rfl⟩, _, rfl⟩
/-- EveryCommandAnswersAsExec, ResponseDependsOnTheRequestAlone: two states that run the same request. -/
theorem witness_same_request :
    (loaded 0x10 0x3C00).pending = ⟨0x10, 0x3C00⟩ :: [] ∧ busy.pending = ⟨0x10, 0x3C00⟩ :: [] ∧
    (∃ t, runHead (loaded 0x10 0x3C00) = .next t) ∧ ∃ t, runHead busy = .next t :=
  ⟨rfl, rfl, ⟨_, rfl⟩, _, rfl⟩
/-- EveryRequestAnsweredOnceInOrder, PendingRequestIsEventuallyAnswered with `n = 0`. -/
theorem witness_run (cmd a : Word) :
    (loaded cmd a).Inv ∧ (loaded cmd a).NoReset 1 ∧ ((loaded cmd a).choiceAt 0).respond = true :=
  ⟨witness_inv cmd a, ⟨rfl, by intro k hk; obtain rfl : k = 0 := by omega
                               rfl⟩, rfl⟩
theorem witness_run_ends : ∃ t, run 1 (loaded 0x1013 0) = .next t := ⟨_, rfl⟩
/-- CapacityIsEventuallyOffered with `n = 0`. -/
theorem witness_capacity :
    let s : State := { State.reset with reqReady := false, sched := [quietCycle] }
    s.Inv ∧ s.pending.length < Config.maxOutstanding ∧ s.NoReset 1 ∧ (s.choiceAt 0).ready = true :=
  ⟨⟨Nat.zero_le _, by simp, by simp, by simp⟩, one_le_maxOutstanding,
    ⟨rfl, by intro k hk; obtain rfl : k = 0 := by omega
             rfl⟩, rfl⟩
/-- EveryLatencyIsPossible. -/
theorem witness_latency :
    (loaded 0x10 0).pending = ⟨0x10, 0⟩ :: [] ∧ (loaded 0x10 0).rst = false ∧ (loaded 0x10 0).rspValid = false := by
  decide
/-- ExecChangesOnlyTheResponse, second clause: nothing pending. -/
theorem witness_no_request : State.reset.pending = [] := rfl
/-- OperandsAndResultsArePacked: operands that agree on the low 8 bits only. -/
theorem witness_operands :
    (∀ j < 8, (0xFFFFFF38 : Word).getLsbD j = (0x00000038 : Word).getLsbD j) ∧
    (∃ t, exec .decE4m3fn (loaded 0x20 0xFFFFFF38) = .next t) ∧ (∃ t, exec .decE4m3fn (loaded 0x20 0x38) = .next t) ∧
    constInstr .fp16 .pinf = some .constFp16Pinf :=
  ⟨by decide, ⟨_, rfl⟩, ⟨_, rfl⟩, rfl⟩

/-! ### Witnesses about values -/

theorem value32_of_fin {w : Word} {s : Bool} {sig : Nat} {q : Int} (h : unpack32 w = .fin s sig q) :
    value32 w = some (signum s * sig * 2 ^ q) := by
  simp [value32, h, Canon.value]

/-- DecodingIsExact, DecodingIsInjective, DecodeThenEncodeRoundTrip, Cvt…: patterns at the ends of the width. -/
theorem witness_patterns :
    (0xFFFF : Nat) < 2 ^ Fmt.bf16.spec.w ∧ (0x8001 : Nat) < 2 ^ Fmt.fp16.spec.w ∧ isNaNPattern .e4m3fn 0xFF = true ∧
    isInfPattern .fp16 0x7C00 = true ∧ Fmt.expOf .e4m3fn 0x07 = 0 ∧ Fmt.manOf .e4m3fn 0x07 ≠ 0 ∧
    Fmt.expOf .e4m3fn 0x7E ≠ 0 ∧ (patValue .e4m3fn 0x7E).isSome = true := by
  refine ⟨by decide, by decide, by decide, by decide, by decide, by decide, by decide, ?_⟩
  have h : (isNaNPattern .e4m3fn 0x7E || isInfPattern .e4m3fn 0x7E) = false := by decide
  have h' : Fmt.expOf .e4m3fn 0x7E ≠ 0 := by decide
  simp [patValue, h, h']
/-- Pack32KeepsTheValue: the smallest and the largest narrow significands of BF16. -/
theorem witness_pack32 : Pack32Ok 1 (-133) ∧ Pack32Ok 255 120 := by
  constructor <;> · unfold Pack32Ok; decide
/-- NaNDecoding. -/
theorem witness_nan_operand : isNaNPattern .bf16 ((0xABCD7F81 : Word).toNat % 2 ^ Fmt.bf16.spec.w) = true := by decide
/-- NaNEncodesToOnePattern: the smallest and the largest NaN words. -/
theorem witness_nan_words :
    (0x7F800001 : Word).toNat / 2 ^ 23 % 2 ^ 8 = 255 ∧ (0x7F800001 : Word).toNat % 2 ^ 23 ≠ 0 ∧
    (0xFFFFFFFF : Word).toNat / 2 ^ 23 % 2 ^ 8 = 255 ∧ (0xFFFFFFFF : Word).toNat % 2 ^ 23 ≠ 0 := by
  decide
/-- SaturationOfFiniteFormats: 449 and 241. -/
theorem witness_saturation :
    value32 0x43E08000 = some 449 ∧ value32 0x43710000 = some 241 ∧ (448 : ℚ) < |449| ∧ (240 : ℚ) < |241| := by
  refine ⟨?_, ?_, by norm_num, by norm_num⟩
  · rw [value32_of_fin (s := false) (sig := 14712832) (q := -15) (by decide)]; norm_num [signum]
  · rw [value32_of_fin (s := false) (sig := 15794176) (q := -16) (by decide)]; norm_num [signum]
/-- OverflowThresholdOfInfinityFormats: 65520 itself. -/
theorem witness_overflow : value32 0xC77FF000 = some (-65520) ∧ runOn 0x11 0xC77FF000 = some ⟨0xFC00, false⟩ := by
  refine ⟨?_, by decide⟩
  rw [value32_of_fin (s := true) (sig := 16773120) (q := -8) (by decide)]; norm_num [signum]
/-- UnderflowThresholdAndSign: 2^-25 in FP16, a tie. -/
theorem witness_underflow :
    value32 0xB3000000 = some (-(1 / 2 ^ 25)) ∧ |(-(1 / 2 ^ 25) : ℚ)| ≤ underflowBound .fp16 := by
  refine ⟨?_, by norm_num [underflowBound, abs_of_nonneg]⟩
  rw [value32_of_fin (s := true) (sig := 2 ^ 23) (q := -48) (by decide)]; norm_num [signum]
/-- SubnormalInputIsNotFlushed. -/
theorem witness_subnormal_word :
    (0x00018000 : Word).toNat / 2 ^ 23 % 2 ^ 8 = 0 ∧ (0x00018000 : Word).toNat % 2 ^ 23 ≠ 0 := by
  decide
/-- EncodingRoundsToNearestEven, EncodingIsExactWhenRepresentable, EncodingIsMonotone: 1.0625 and 448, in range
of E4M3FN. -/
theorem witness_in_range :
    value32 0x3F880000 = some (17 / 16) ∧ InRange .e4m3fn (17 / 16) ∧ value32 0x43E00000 = some 448 ∧
    InRange .e4m3fn 448 ∧ (17 / 16 : ℚ) < 448 := by
  refine ⟨?_, by norm_num [InRange, overflowBound, maxValue, Fmt.maxSig, Fmt.maxExp, abs_of_nonneg], ?_,
    by norm_num [InRange, overflowBound, maxValue, Fmt.maxSig, Fmt.maxExp, abs_of_nonneg], by norm_num⟩
  · rw [value32_of_fin (s := false) (sig := 8912896) (q := -23) (by decide)]; norm_num [signum]
  · rw [value32_of_fin (s := false) (sig := 14680064) (q := -15) (by decide)]; norm_num [signum]
/-- Two values that a format represents, one below the other, for the strict clause of EncodingIsMonotone. -/
theorem witness_representable : patValue .e4m3fn 0x38 = some 1 ∧ patValue .e4m3fn 0x40 = some 2 := by
  have h : (isNaNPattern .e4m3fn 0x38 || isInfPattern .e4m3fn 0x38) = false := by decide
  have h' : (isNaNPattern .e4m3fn 0x40 || isInfPattern .e4m3fn 0x40) = false := by decide
  have e : Fmt.expOf .e4m3fn 0x38 = 7 ∧ Fmt.manOf .e4m3fn 0x38 = 0 ∧ Fmt.signOf .e4m3fn 0x38 = false := by decide
  have e' : Fmt.expOf .e4m3fn 0x40 = 8 ∧ Fmt.manOf .e4m3fn 0x40 = 0 ∧ Fmt.signOf .e4m3fn 0x40 = false := by decide
  constructor
  · simp [patValue, h, e, signum, Fmt.spec]
  · simp only [patValue, h', e', signum, Fmt.spec]; norm_num
/-- NaNPatternOnlyFromNaN, OverflowTestOrderIsImmaterial. -/
theorem witness_no_nan : isNaN32 0x7F800000 = false ∧ Fmt.e4m3fn.spec.kind ≠ .ieee ∧ Fmt.e4m3fnuz.spec.kind ≠ .ieee := by
  decide
/-- CvtRangeEnds: every clause at its boundary, for BF16 to FP16 (0x4780 is 65536, 0x3300 is 2^-25). -/
theorem witness_range_ends :
    rangeEnds .bf16 .fp16 = some (0x4780, 0x3300) ∧ isNaNPattern .bf16 0x7F81 = true ∧
    isNaNPattern .bf16 0x4780 = false ∧ cvt .bf16 .fp16 0x4780 = 0x7C00 ∧ cvt .bf16 .fp16 0x477F = 0x7BF8 ∧
    cvt .bf16 .fp16 0xB300 = 0x8000 ∧ cvt .bf16 .fp16 0x3301 = 1 := by
  decide
/-- CvtWideningIsExact. -/
theorem witness_widening : Fmt.e4m3fn.spec.w = 8 ∧ Fmt.bf16.spec.w = 16 ∧ isNaNPattern .e4m3fn 0xFE = false ∧
    isNaNPattern .e4m3fn 0xFF = true := by
  decide
/-- SpecqAgreesWithDec. -/
theorem witness_specq_dec :
    (∃ t, exec .specqFp16 (loaded 0x14 0x7C01) = .next t) ∧ ∃ t, exec .decFp16 (loaded 0x14 0x7C01) = .next t :=
  ⟨⟨_, rfl⟩, _, rfl⟩

end Sys2Proof.Tests
end

/-! ## The decoder and the one function by fields (30_encoding.md R60 to R68, 10_state.md R28) -/

namespace Sys2Proof

open Machine

theorem plainCommand_eq_ok_iff {c : Fields} {i j : Instr} :
    plainCommand c i = .ok j ↔ c.fb = 0 ∧ c.sel = 0 ∧ i = j := by
  unfold plainCommand
  split_ifs <;> simp_all

theorem cvtCommand_eq_ok_iff {c : Fields} {fa : Fmt} {j : Instr} :
    cvtCommand c fa = .ok j ↔ c.sel = 0 ∧ ∃ fb, Fmt.ofCode c.fb = some fb ∧ cvtInstr fa fb = j := by
  unfold cvtCommand
  cases Fmt.ofCode c.fb <;> split_ifs <;> simp_all

theorem constCommand_eq_ok_iff {c : Fields} {fa : Fmt} {j : Instr} :
    constCommand c fa = .ok j ↔ c.fb = 0 ∧ ∃ sel, Sel.ofCode c.sel = some sel ∧ constInstr fa sel = some j := by
  unfold constCommand
  cases Sel.ofCode c.sel with
  | none => split_ifs <;> simp_all
  | some sel => cases h : constInstr fa sel <;> split_ifs <;> simp_all

@[simp] theorem decInstr_fields (f : Fmt) : (decInstr f).fields = ⟨Op.dec.code, f.code, 0, 0, 0⟩ := by
  cases f <;> rfl

@[simp] theorem encInstr_fields (f : Fmt) : (encInstr f).fields = ⟨Op.enc.code, f.code, 0, 0, 0⟩ := by
  cases f <;> rfl

@[simp] theorem specqInstr_fields (f : Fmt) : (specqInstr f).fields = ⟨Op.specq.code, f.code, 0, 0, 0⟩ := by
  cases f <;> rfl

@[simp] theorem cvtInstr_fields (fa fb : Fmt) :
    (cvtInstr fa fb).fields = ⟨Op.cvt.code, fa.code, fb.code, 0, 0⟩ := by
  cases fa <;> cases fb <;> rfl

theorem constInstr_fields {f : Fmt} {sel : Sel} {i : Instr} (h : constInstr f sel = some i) :
    i.fields = ⟨Op.const.code, f.code, 0, sel.code, 0⟩ := by
  cases f <;> cases sel <;> cases h <;> rfl

/-- Only the IEEE kinds have infinities (R67). -/
theorem constInstr_isSome (f : Fmt) (sel : Sel) :
    (constInstr f sel).isSome = (decide (f.spec.kind = .ieee) || !sel.isInf) := by
  cases f <;> cases sel <;> rfl

/-- The command of an operation, once `RSVD`, `OP` and `FA` have been found legal. -/
def familyCommand (c : Fields) (f : Fmt) : Op → Except Reject Instr
  | .dec   => plainCommand c (decInstr f)
  | .enc   => plainCommand c (encInstr f)
  | .cvt   => cvtCommand c f
  | .const => constCommand c f
  | .specq => plainCommand c (specqInstr f)

theorem Fields.decode_of_codes {c : Fields} {op : Op} {f : Fmt} (hr : c.rsvd = 0)
    (hop : Op.ofCode c.op = some op) (hfa : Fmt.ofCode c.fa = some f) : c.decode = familyCommand c f op := by
  cases op <;> simp [Fields.decode, hr, hop, hfa, familyCommand]

theorem Fields.decode_eq_ok {c : Fields} {i : Instr} (h : c.decode = .ok i) :
    c.rsvd = 0 ∧ ∃ op f, Op.ofCode c.op = some op ∧ Fmt.ofCode c.fa = some f ∧ familyCommand c f op = .ok i := by
  by_cases hr : c.rsvd = 0
  · cases hop : Op.ofCode c.op with
    | none => simp [Fields.decode, hr, hop] at h
    | some op =>
      cases hfa : Fmt.ofCode c.fa with
      | none => simp [Fields.decode, hr, hop, hfa] at h
      | some f => exact ⟨hr, op, f, rfl, rfl, Fields.decode_of_codes hr hop hfa ▸ h⟩
  · rw [Fields.decode, if_pos hr] at h
    cases h

/-- A command decodes only to the instruction whose fields it has. -/
theorem Fields.eq_fields_of_decode_ok {c : Fields} {i : Instr} (h : c.decode = .ok i) : c = i.fields := by
  obtain ⟨hr, op, f, hop, hfa, hc⟩ := Fields.decode_eq_ok h
  obtain ⟨cop, cfa, cfb, csel, crsvd⟩ := c
  obtain rfl : crsvd = 0 := hr
  obtain rfl : cop = op.code := opOfCode_eq_some hop
  obtain rfl : cfa = f.code := ofCode_eq_some hfa
  cases op with
  | dec | enc | specq => obtain ⟨rfl, rfl, rfl⟩ := plainCommand_eq_ok_iff.mp hc; simp
  | cvt =>
    obtain ⟨rfl, fb, hfb, rfl⟩ := cvtCommand_eq_ok_iff.mp hc
    obtain rfl : cfb = fb.code := ofCode_eq_some hfb
    simp
  | const =>
    obtain ⟨rfl, sel, hsel, hi⟩ := constCommand_eq_ok_iff.mp hc
    obtain rfl : csel = sel.code := selOfCode_eq_some hsel
    exact (constInstr_fields hi).symm

/-- The format codes 0 to 3 are the assigned ones (R66). -/
theorem Fmt.exists_ofCode {c : BitVec 4} (h : c ≤ 3) : ∃ f, Fmt.ofCode c = some f :=
  have all : ∀ c : BitVec 4, c ≤ 3 → (Fmt.ofCode c).isSome := by decide
  Option.isSome_iff_exists.mp (all c h)

/-- The selector codes 0 to 5 are the assigned ones, and 0 to 3 are no infinities (R67). -/
theorem Sel.exists_ofCode {c : BitVec 4} (h : c ≤ 5) :
    ∃ sel, Sel.ofCode c = some sel ∧ (c ≤ 3 → sel.isInf = false) := by
  have all : ∀ c : BitVec 4, c ≤ 5 →
      (Sel.ofCode c).isSome ∧ (c ≤ 3 → (Sel.ofCode c).any Sel.isInf = false) := by decide
  obtain ⟨hs, hinf⟩ := all c h
  obtain ⟨sel, hsel⟩ := Option.isSome_iff_exists.mp hs
  exact ⟨sel, hsel, by simpa [hsel] using hinf⟩

/-- A legal command (R68) decodes. -/
theorem Fields.decode_ok_of_legal {c : Fields} (h : c.legal = true) : ∃ i, c.decode = .ok i := by
  unfold Fields.legal at h
  split_ifs at h with hr hfa
  obtain ⟨f, hf⟩ := Fmt.exists_ofCode (BitVec.not_lt.mp hfa)
  cases hop : Op.ofCode c.op with
  | none => simp [hop] at h
  | some op =>
    rw [Fields.decode_of_codes (not_not.mp hr) hop hf]
    cases op with
    | dec | enc | specq =>
      obtain ⟨hfb, hsel⟩ : c.fb = 0 ∧ c.sel = 0 := by simpa [hop] using h
      exact ⟨_, plainCommand_eq_ok_iff.mpr ⟨hfb, hsel, rfl⟩⟩
    | cvt =>
      obtain ⟨hfb, hsel⟩ : c.fb ≤ 3 ∧ c.sel = 0 := by simpa [hop] using h
      obtain ⟨fb, hfb⟩ := Fmt.exists_ofCode hfb
      exact ⟨_, cvtCommand_eq_ok_iff.mpr ⟨hsel, fb, hfb, rfl⟩⟩
    | const =>
      obtain ⟨hfb, hsel⟩ : c.fb = 0 ∧ (c.sel ≤ 3 ∨ c.sel ≤ 5 ∧ f.spec.kind = .ieee) := by
        simpa [hop, Fields.faIsIeee, hf] using h
      obtain ⟨sel, hs, hfin⟩ := Sel.exists_ofCode (c := c.sel) (by bv_omega)
      have hi : (constInstr f sel).isSome := by
        rw [constInstr_isSome]
        obtain hlow | ⟨-, hieee⟩ := hsel
        · simp [hfin hlow]
        · simp [hieee]
      obtain ⟨i, hi⟩ := Option.isSome_iff_exists.mp hi
      exact ⟨i, constCommand_eq_ok_iff.mpr ⟨hfb, sel, hs, hi⟩⟩

theorem Instr.wellFormed (i : Instr) : i.WellFormed := by
  cases i <;> decide

end Sys2Proof

namespace Sys2Proof.Machine

/-- `Exec` of a word that decodes is the result of its instruction. -/
theorem execRequest_of_decode_ok {r : Request} {i : Instr} (h : decode r.cmd = .ok i) :
    execRequest r = ⟨resultOfInstr i r.a, false⟩ := by
  have hc : Fields.ofWord r.cmd = i.fields := Fields.eq_fields_of_decode_ok h
  have hl : legal r.cmd = true := by rw [legal, hc]; exact i.wellFormed
  simp only [execRequest, hl, hc]
  cases i <;> rfl

/-- `Exec` of a word that does not decode is IllegalCommand. -/
theorem execRequest_of_decode_error {r : Request} {e : Reject} (h : decode r.cmd = .error e) :
    execRequest r = ⟨0, true⟩ := by
  have hl : legal r.cmd = false := by
    rw [legal, ← Bool.not_eq_true]
    intro hl
    obtain ⟨i, hi⟩ := Fields.decode_ok_of_legal hl
    exact absurd (hi.symm.trans h) (by simp)
  simp [execRequest, hl]

/-- Running the oldest request offers `Exec` of it and changes nothing else. -/
theorem runHead_eq_execRequest {s : State} {r : Request} {rest : List Request} (h : s.pending = r :: rest) :
    runHead s = .next { s with
      rspValid := true, rspD := (execRequest r).d, rspIll := (execRequest r).ill } := by
  rw [runHead_of_pending h]
  cases hd : decode r.cmd with
  | ok i => rw [runCommand_ok hd, exec_of_pending i h, execRequest_of_decode_ok hd]; rfl
  | error e => rw [runCommand_error hd, execRequest_of_decode_error hd]; rfl

/-- Settles O15: a word decodes exactly when it is legal, to the instruction whose fields it has. -/
theorem everyCommandAnswersAsExec : Obligations.EveryCommandAnswersAsExec :=
  fun _ _ _ h => runHead_eq_execRequest h

end Sys2Proof.Machine

/-! ## Steps and runs (10_state.md R23 to R27) -/

namespace Sys2Proof.Machine

/-! ### What the edge conditions of a cycle say -/

theorem State.accepts_eq_true {s : State} :
    s.accepts = true ↔ s.rst = false ∧ s.reqValid = true ∧ s.reqReady = true := by
  simp [State.accepts, and_assoc]

theorem State.delivers_eq_true {s : State} :
    s.delivers = true ↔ s.rst = false ∧ s.rspValid = true ∧ s.rspReady = true := by
  simp [State.delivers, and_assoc]

theorem State.holdsResponse_eq_true {s : State} :
    s.holdsResponse = true ↔ s.rspValid = true ∧ s.delivers = false ∧ s.resetting = false := by
  simp [State.holdsResponse, and_assoc]

theorem State.answers_eq_true {s : State} :
    s.answers = true ↔ s.resetting = false ∧ s.holdsResponse = false ∧ s.choice.respond = true := by
  simp [State.answers, and_assoc]

/-! ### One step -/

theorem exists_step (s : State) : ∃ t, step s = .next t := by
  cases ha : s.answers with
  | false => exact ⟨_, step_of_not_answers ha⟩
  | true =>
    rw [step_of_answers ha]
    cases hp : s.advance.pending with
    | nil => exact ⟨_, runHead_of_empty hp⟩
    | cons r rest => exact ⟨_, runHead_eq_execRequest hp⟩

/-- What a step leaves on the response channel: what the advanced state has there, or, in a cycle without reset, `Exec` of
the oldest request. -/
theorem step_response {s t : State} (h : step s = .next t) :
    (t.rspValid = s.holdsResponse ∧ t.rspD = s.advance.rspD ∧ t.rspIll = s.advance.rspIll) ∨
    (s.resetting = false ∧ ∃ r rest, t.pending = r :: rest ∧ (⟨t.rspD, t.rspIll⟩ : Response) = execRequest r) := by
  obtain rfl | ⟨ha, r, rest, d, ill, hp, hr, rfl⟩ := step_cases h
  · exact .inl ⟨rfl, rfl, rfl⟩
  · refine .inr ⟨(State.answers_eq_true.mp ha).1, r, rest, hp, ?_⟩
    have hs := Host.Outcome.next.inj ((runHead_eq_execRequest hp).symm.trans hr)
    exact (congrArg (fun u : State => (⟨u.rspD, u.rspIll⟩ : Response)) hs).symm

/-! ### The queue -/

theorem State.nextPending_of_resetting {s : State} (h : s.resetting = true) : s.nextPending = [] := by
  simp [State.nextPending, h]

theorem State.nextPending_of_not_resetting {s : State} (h : s.resetting = false) : s.nextPending = s.queued := by
  simp [State.nextPending, h]

/-- Under reset nothing is accepted or delivered (R240), so a queue that is empty stays so. -/
theorem State.queued_of_rst {s : State} (h : s.rst = true) (hp : s.pending = []) : s.queued = [] := by
  simp [State.queued, State.accepts, State.delivers, h, hp]

/-- A request is accepted only when there is room for it (R26), so the queue keeps its depth. -/
theorem State.Inv.length_nextPending_le {s : State} (h : s.Inv) : s.nextPending.length ≤ Config.maxOutstanding := by
  cases hr : s.resetting with
  | true => simp [State.nextPending_of_resetting hr]
  | false =>
    have hkept : (if s.delivers then s.pending.tail else s.pending).length ≤ s.pending.length := by
      split_ifs <;> simp
    rw [State.nextPending_of_not_resetting hr, State.queued, List.length_append]
    by_cases ha : s.accepts = true
    · have hroom := h.room (State.accepts_eq_true.mp ha).2.2
      simp only [ha, if_true, List.length_singleton]
      omega
    · have hdepth := h.depth
      simp only [ha, Bool.false_eq_true, if_false, List.length_nil]
      omega

/-- Out of reset, `pending` is what the two handshakes leave (R27). -/
theorem State.Inv.nextPending_eq_queued {s : State} (h : s.Inv) (hr : s.choice.reset = false) :
    s.nextPending = s.queued := by
  cases hrst : s.rst with
  | false => exact State.nextPending_of_not_resetting (by simp [State.resetting, hrst, hr])
  | true =>
    rw [State.nextPending_of_resetting (by simp [State.resetting, hrst]),
      State.queued_of_rst hrst (h.quiet hrst).1]

/-! ### The invariant -/

/-- Every step keeps the invariant. -/
theorem State.Inv.of_step {s t : State} (h : s.Inv) (hstep : step s = .next t) : t.Inv := by
  obtain ⟨hrst, hpend, -, hready, -, -, -, hboot, -⟩ := step_frame hstep
  refine ⟨?depth, ?room, ?quiet, ?answered⟩
  case depth => exact hpend ▸ h.length_nextPending_le
  case room =>
    intro hr
    rw [hready] at hr
    simp only [State.nextReqReady, Bool.and_eq_true, decide_eq_true_eq] at hr
    exact hpend ▸ hr.1.2
  case quiet =>
    intro ht
    have hc : s.choice.reset = true := hrst ▸ ht
    have hres : s.resetting = true := by simp [State.resetting, hc]
    refine ⟨hpend.trans (State.nextPending_of_resetting hres), ?_, ?_, ?_⟩
    · simp [hready, State.nextReqReady, hc]
    · obtain ⟨hv, -⟩ | ⟨hn, -⟩ := step_response hstep
      · simp [hv, State.holdsResponse, hres]
      · simp [hres] at hn
    · simp [hboot, State.nextBooted, hres]
  case answered =>
    intro hv
    obtain ⟨hheld, hd, hill⟩ | ⟨-, hexec⟩ := step_response hstep
    · rw [hheld] at hv
      obtain ⟨hvalid, hdel, hres⟩ := State.holdsResponse_eq_true.mp hv
      obtain ⟨r, rest, hp, hr⟩ := h.answered hvalid
      refine ⟨r, rest ++ (if s.accepts then [s.offered] else []), ?_, ?_⟩
      · rw [hpend, State.nextPending_of_not_resetting hres]
        simp [State.queued, hdel, hp]
      · simpa [hd, hill, hv] using hr
    · exact hexec

/-! ### The order of responses -/

/-- A request offered on the channel is either accepted at the coming edge or held (R26). -/
theorem State.accepted_append_held (s : State) :
    (if s.accepts then [s.offered] else []) ++ (if s.holdsRequest then [s.offered] else []) = s.onChannel := by
  cases ha : s.accepts with
  | true => simp [State.onChannel, State.holdsRequest, ha, (State.accepts_eq_true.mp ha).2.1]
  | false => simp [State.onChannel, State.holdsRequest, ha]

/-- A request newly raised is the next of the program (R22). -/
theorem State.raised_append_nextProgram (s : State) : s.raised.toList ++ s.nextProgram = s.program := by
  cases hr : s.raised with
  | none => simp [State.nextProgram, hr]
  | some r =>
    have hhead : s.program.head? = some r := by
      unfold State.raised at hr
      split_ifs at hr
      exact hr
    simpa [State.nextProgram, hr] using List.cons_head?_tail hhead

theorem State.nextRequest_toList (s : State) :
    s.nextRequest.toList = (if s.holdsRequest then [s.offered] else []) ++ s.raised.toList := by
  cases hh : s.holdsRequest <;> simp [State.nextRequest, State.raised, hh]

/-- The request channel after a step. -/
theorem onChannel_step {s t : State} (h : step s = .next t) : t.onChannel = s.nextRequest.toList := by
  obtain ⟨-, -, hvalid, -, hcmd, ha, -⟩ := step_frame h
  cases hn : s.nextRequest <;> simp [State.onChannel, State.offered, hvalid, hcmd, ha, hn]

/-- Delivery moves `Exec` of the oldest request from what is to come to what the host has (R27). -/
theorem State.Inv.nextReceived_append {s : State} (h : s.Inv) :
    s.nextReceived ++ (if s.delivers then s.pending.tail else s.pending).map execRequest =
      s.received ++ s.pending.map execRequest := by
  by_cases hd : s.delivers = true
  · obtain ⟨r, rest, hp, hr⟩ := h.answered (State.delivers_eq_true.mp hd).2.1
    simp [State.nextReceived, hd, hp, hr]
  · simp [State.nextReceived, hd]

/-- The requests of `queued`, the channel and the program after an edge, in terms of those before it. -/
theorem State.queued_append (s : State) :
    s.queued ++ s.nextRequest.toList ++ s.nextProgram =
      (if s.delivers then s.pending.tail else s.pending) ++ s.onChannel ++ s.program := by
  rw [State.nextRequest_toList, ← s.accepted_append_held, ← s.raised_append_nextProgram]
  simp only [State.queued, List.append_assoc]

/-- A step into a cycle without reset changes nothing in the sequence of responses. -/
theorem State.Inv.flow_step {s t : State} (h : s.Inv) (hstep : step s = .next t) (ht : t.rst = false) :
    t.flow = s.flow := by
  obtain ⟨hrst, hpend, -, -, -, -, -, -, hprog, hrec, -⟩ := step_frame hstep
  have hun : t.unanswered = (if s.delivers then s.pending.tail else s.pending) ++ s.onChannel ++ s.program := by
    rw [State.unanswered, hpend, h.nextPending_eq_queued (hrst ▸ ht), onChannel_step hstep, hprog, s.queued_append]
  calc t.flow
      = (s.nextReceived ++ (if s.delivers then s.pending.tail else s.pending).map execRequest) ++
          (s.onChannel ++ s.program).map execRequest := by
        simp only [State.flow, hun, hrec, List.map_append, List.append_assoc]
    _ = s.flow := by
        simp only [h.nextReceived_append, State.flow, State.unanswered, List.map_append, List.append_assoc]

/-! ### Runs -/

/-- A run of `n + 1` steps is a step and a run of `n`. -/
theorem run_succ_next {n : Nat} {s t : State} (h : run (n + 1) s = .next t) :
    ∃ u, step s = .next u ∧ run n u = .next t := by
  obtain ⟨u, hu⟩ := exists_step s
  exact ⟨u, hu, run_succ hu n ▸ h⟩

theorem State.NoReset.of_step {n : Nat} {s t : State} (h : s.NoReset (n + 1)) (hstep : step s = .next t) :
    t.NoReset n := by
  refine ⟨?_, fun k hk => ?_⟩
  · rw [(step_frame hstep).1, choice_eq_choiceAt]
    exact h.2 0 (by omega)
  · rw [choiceAt_step hstep]
    exact h.2 (k + 1) (by omega)

/-- In a run without reset the sequence of responses stays the same. -/
theorem State.Inv.flow_run {n : Nat} {s t : State} (h : s.Inv) (hno : s.NoReset n) (hrun : run n s = .next t) :
    t.flow = s.flow := by
  induction n generalizing s with
  | zero =>
    injection hrun with hrun
    rw [hrun]
  | succ n ih =>
    obtain ⟨u, hstep, hrest⟩ := run_succ_next hrun
    have hu : u.NoReset n := hno.of_step hstep
    rw [ih (h.of_step hstep) hu hrest, h.flow_step hstep hu.1]

/-- With nothing left to answer, the sequence of responses is what the host has. -/
theorem State.flow_of_unanswered_nil {s : State} (h : s.unanswered = []) : s.flow = s.received := by
  simp [State.flow, h]

/-- Settles O18, by induction on the length of the run: a step keeps the invariant and the sequence of responses. -/
theorem everyRequestAnsweredOnceInOrder : Obligations.EveryRequestAnsweredOnceInOrder := by
  intro n s t hinv hno hrun
  have hflow : t.flow = s.flow := hinv.flow_run hno hrun
  exact ⟨hflow, fun hun => (State.flow_of_unanswered_nil hun).symm.trans hflow⟩

end Sys2Proof.Machine

/-! ## Command words: their fields, the opcode map, legality (30_encoding.md R60, R68, R87) -/

namespace Sys2Proof

open Machine

/-! ### The fields of a word (R60) -/

@[simp] theorem Fields.toNat_op_ofWord (w : Word) : (Fields.ofWord w).op.toNat = w.toNat % 2 ^ 4 := by
  simp [Fields.ofWord]

@[simp] theorem Fields.toNat_fa_ofWord (w : Word) : (Fields.ofWord w).fa.toNat = w.toNat / 2 ^ 4 % 2 ^ 4 := by
  simp [Fields.ofWord, Nat.shiftRight_eq_div_pow]

@[simp] theorem Fields.toNat_fb_ofWord (w : Word) : (Fields.ofWord w).fb.toNat = w.toNat / 2 ^ 8 % 2 ^ 4 := by
  simp [Fields.ofWord, Nat.shiftRight_eq_div_pow]

@[simp] theorem Fields.toNat_sel_ofWord (w : Word) : (Fields.ofWord w).sel.toNat = w.toNat / 2 ^ 12 % 2 ^ 4 := by
  simp [Fields.ofWord, Nat.shiftRight_eq_div_pow]

/-- `RSVD` reaches to the top of the word, so nothing is cut off above it. -/
@[simp] theorem Fields.toNat_rsvd_ofWord (w : Word) : (Fields.ofWord w).rsvd.toNat = w.toNat / 2 ^ 16 := by
  have hw := w.isLt
  simp only [Fields.ofWord, BitVec.extractLsb'_toNat, Nat.shiftRight_eq_div_pow]
  omega

/-- Each field starts where the one below it ends, so appending the five gives the word back. -/
@[simp] theorem Fields.toWord_ofWord (w : Word) : (Fields.ofWord w).toWord = w := by
  rw [Fields.toWord, Fields.ofWord]
  simp (disch := rfl) only [BitVec.extractLsb'_append_extractLsb'_eq_extractLsb', BitVec.extractLsb'_eq_self]

theorem Fields.ofWord_injective : Function.Injective Fields.ofWord :=
  Function.LeftInverse.injective Fields.toWord_ofWord

/-- Settles O3: each field is a slice of the word, and the slices append to the word. -/
theorem commandWordFields : Obligations.CommandWordFields := fun w =>
  ⟨Fields.toWord_ofWord w, Fields.toNat_op_ofWord w, Fields.toNat_fa_ofWord w, Fields.toNat_fb_ofWord w,
    Fields.toNat_sel_ofWord w, Fields.toNat_rsvd_ofWord w⟩

/-! ### The words of the instructions (R87) -/

@[simp] theorem decode_encode (i : Instr) : decode (encode i) = .ok i := by
  cases i <;> rfl

theorem encode_injective : Function.Injective encode := fun i j h =>
  Except.ok.inj ((decode_encode i).symm.trans ((congrArg decode h).trans (decode_encode j)))

/-- A word decodes only to the instruction that has it in the opcode map: the two words have the same fields. -/
theorem eq_encode_of_decode_ok {w : Word} {i : Instr} (h : decode w = .ok i) : w = encode i :=
  Fields.ofWord_injective
    ((Fields.eq_fields_of_decode_ok h).trans (Fields.eq_fields_of_decode_ok (decode_encode i)).symm)

theorem mem_allInstrs (i : Instr) : i ∈ allInstrs := by
  cases i <;> decide

/-- The rows of the opcode map are the words and mnemonics of the 48 instructions. -/
theorem opcodeMap_eq_map_allInstrs :
    opcodeMapDecEnc ++ opcodeMapCvt ++ opcodeMapConstSpecq = allInstrs.map (fun i => (encode i, i.mnemonic)) := by
  rfl

/-- Settles O1: every row is the word and mnemonic of an instruction, and that word decodes to it; the words of the four
absent constants are evaluated. -/
theorem opcodeMapDecodes : Obligations.OpcodeMapDecodes := by
  constructor
  · intro row hrow
    rw [opcodeMap_eq_map_allInstrs] at hrow
    obtain ⟨i, -, rfl⟩ := List.mem_map.mp hrow
    exact ⟨i, decode_encode i, rfl⟩
  · rw [List.forall_mem_cons, List.forall_mem_cons, List.forall_mem_cons, List.forall_mem_singleton]
    decide

/-! ### Legality (R68) -/

/-- The operation codes 0 to 4 are the assigned ones (R61). -/
theorem Op.ofCode_eq_none_iff {c : BitVec 4} : Op.ofCode c = none ↔ 5 ≤ c.toNat := by
  revert c
  decide

/-- The formats with an infinity have the codes 0 and 1 (R66, R70). -/
theorem Fields.faIsIeee_iff {c : Fields} : c.faIsIeee = true ↔ c.fa.toNat ≤ 1 := by
  have all : ∀ x : BitVec 4, (⟨0, x, 0, 0, 0⟩ : Fields).faIsIeee = true ↔ x.toNat ≤ 1 := by decide
  exact all c.fa

/-- The clauses of `Legal(CMD)`, on the numbers in the fields. -/
theorem Fields.legal_iff_toNat {c : Fields} :
    c.legal = true ↔ c.rsvd.toNat = 0 ∧ c.fa.toNat ≤ 3 ∧
      ((c.op.toNat ∈ [0, 1, 4] ∧ c.fb.toNat = 0 ∧ c.sel.toNat = 0) ∨
       (c.op.toNat = 2 ∧ c.fb.toNat ≤ 3 ∧ c.sel.toNat = 0) ∨
       (c.op.toNat = 3 ∧ c.fb.toNat = 0 ∧ (c.sel.toNat ≤ 3 ∨ (c.sel.toNat ≤ 5 ∧ c.fa.toNat ≤ 1)))) := by
  unfold Fields.legal
  split_ifs with hrsvd hfa
  · exact iff_of_false not_false fun ⟨h, _⟩ => hrsvd (BitVec.eq_of_toNat_eq h)
  · exact iff_of_false not_false fun ⟨_, h, _⟩ => absurd h (not_le.mpr hfa)
  · have hr : c.rsvd.toNat = 0 := congrArg BitVec.toNat (not_not.mp hrsvd)
    have hf : c.fa.toNat ≤ 3 := not_lt.mp hfa
    cases hop : Op.ofCode c.op with
    | none =>
      have hcode : 5 ≤ c.op.toNat := Op.ofCode_eq_none_iff.mp hop
      refine iff_of_false Bool.false_ne_true ?_
      simp only [List.mem_cons, List.not_mem_nil, or_false]
      omega
    | some op =>
      rw [opOfCode_eq_some hop]
      cases op <;> simp [Op.code, hr, hf, Fields.faIsIeee_iff, BitVec.toNat_eq, BitVec.le_def]

theorem legal_iff_exists_decode {w : Word} : legal w = true ↔ ∃ i, decode w = .ok i := by
  refine ⟨Fields.decode_ok_of_legal, fun ⟨i, hi⟩ => ?_⟩
  rw [legal, Fields.eq_fields_of_decode_ok hi]
  exact i.wellFormed

/-- The legal words are the words of the 48 instructions. -/
theorem mem_map_encode_iff_legal {w : Word} : w ∈ allInstrs.map encode ↔ legal w = true := by
  rw [legal_iff_exists_decode, List.mem_map]
  constructor
  · rintro ⟨i, -, rfl⟩
    exact ⟨i, decode_encode i⟩
  · rintro ⟨i, hi⟩
    exact ⟨i, mem_allInstrs i, (eq_encode_of_decode_ok hi).symm⟩

/-- The decoder is total: it accepts the legal words and rejects the others. -/
theorem legal_and_decode_cases (w : Word) :
    (legal w = true ∧ ∃ i, decode w = .ok i) ∨ (legal w = false ∧ ∃ e, decode w = .error e) := by
  cases hd : decode w with
  | ok i => exact .inl ⟨legal_iff_exists_decode.mpr ⟨i, hd⟩, i, rfl⟩
  | error e =>
    have hl : ¬ legal w = true := by simp [legal_iff_exists_decode, hd]
    exact .inr ⟨Bool.eq_false_of_not_eq_true hl, e, rfl⟩

/-- Settles O4: the clauses of R68 on the fields of the word; the legal words are the words of the 48 instructions; a word
decodes exactly when it is legal. -/
theorem legalityAsSpecified : Obligations.LegalityAsSpecified := by
  refine ⟨fun w => ?clauses, ⟨allInstrs.map encode, rfl, ?nodup, fun w => mem_map_encode_iff_legal⟩,
    legal_and_decode_cases⟩
  case clauses => simpa [legal] using Fields.legal_iff_toNat (c := Fields.ofWord w)
  case nodup => exact List.Nodup.map encode_injective (by decide)

end Sys2Proof

/-! ## DEC (41_decode.md R100, R106) -/

namespace Sys2Proof.Machine

theorem resultOfInstr_decInstr (f : Fmt) (a : Word) :
    resultOfInstr (decInstr f) a = dec f (narrowOperand f a) := by
  cases f <;> rfl

/-- Every DEC completes with `D = DEC(F, A[W-1:0])` (R69, R100). -/
theorem answers_decInstr (f : Fmt) : Answers (decInstr f) (fun a => dec f (narrowOperand f a)) := by
  intro s r rest h
  rw [exec_of_pending _ h, resultOfInstr_decInstr]
  rfl

/-- The one format of the FNUZ kind (R70). -/
theorem spec_kind_eq_fnuz_iff (f : Fmt) : f.spec.kind = .fnuz ↔ f = .e4m3fnuz := by
  cases f <;> decide

/-- DEC of a NaN pattern (R106): each kind has its own NaN patterns (R78), and they fall under its own clause of R100. -/
theorem dec_of_isNaNPattern {f : Fmt} {b : Nat} (h : isNaNPattern f b = true) :
    dec f b = if f = .e4m3fnuz then 0x7FC00000
      else word32 (f.signOf b) 0xFF (f.manOf b * 2 ^ (23 - f.spec.m)) := by
  simp only [← spec_kind_eq_fnuz_iff]
  cases hk : f.spec.kind with
  | ieee =>
    obtain ⟨he, hm⟩ : f.expOf b = ones f.spec.e ∧ f.manOf b ≠ 0 := by simpa [isNaNPattern, hk] using h
    simp [dec, hk, he, hm]
  | fn =>
    obtain ⟨he, hm⟩ : f.expOf b = ones f.spec.e ∧ f.manOf b = ones f.spec.m := by simpa [isNaNPattern, hk] using h
    simp [dec, hk, he, hm]
  | fnuz =>
    have hb : b = 2 ^ (f.spec.w - 1) := by simpa [isNaNPattern, hk] using h
    simp [dec, hk, hb]

/-- Settles O33: DEC answers `DEC(F, A[W-1:0])`, which is the stated NaN word on every NaN pattern. -/
theorem nanDecoding : Obligations.NaNDecoding := by
  intro f s r rest hp hnan
  rw [← dec_of_isNaNPattern hnan]
  exact answers_decInstr f s r rest hp

end Sys2Proof.Machine

/-! ## ENC: rounding, special operands, saturation, underflow (42_encode.md R130 to R145) -/

namespace Sys2Proof.Machine

/-! ### Rounding to nearest even (R131) -/

/-- Where no bit is discarded, RNE is exact. -/
theorem cast_rne_of_nonpos (sig : Nat) {sh : Int} (h : sh ≤ 0) : (rne sig sh : ℚ) = sig * 2 ^ (-sh) := by
  have hn : ((-sh).toNat : Int) = -sh := Int.toNat_of_nonneg (by omega)
  rw [rne_of_nonpos h, Nat.cast_mul, Nat.cast_pow, Nat.cast_ofNat, ← zpow_natCast, hn]

/-- Half a unit of the last place kept, on the scale of the significand. -/
theorem half_mul_two_pow {k : Nat} (hk : 0 < k) : (1 / 2 : ℚ) * 2 ^ k = (2 ^ (k - 1) : Nat) := by
  obtain ⟨j, rfl⟩ : ∃ j, k = j + 1 := ⟨k - 1, by omega⟩
  rw [Nat.add_sub_cancel, Nat.cast_pow, Nat.cast_ofNat]
  ring

/-- The rounding error, on the scale of the significand. -/
theorem abs_sub_mul_two_pow (n sig k : Nat) :
    |(n : ℚ) - sig * 2 ^ (-(k : Int))| * 2 ^ k = |(n : ℚ) * 2 ^ k - sig| := by
  have hk : (0 : ℚ) < 2 ^ k := by positivity
  rw [← abs_of_pos hk, ← abs_mul, abs_of_pos hk, sub_mul, mul_assoc, zpow_neg, zpow_natCast,
    inv_mul_cancel₀ hk.ne', mul_one]

/-- RNE is never more than half a unit off. -/
theorem abs_rne_sub_le_half (sig : Nat) (sh : Int) : |(rne sig sh : ℚ) - sig * 2 ^ (-sh)| ≤ 1 / 2 := by
  rcases le_or_gt sh 0 with h | h
  · rw [cast_rne_of_nonpos sig h]
    norm_num
  · obtain ⟨k, rfl⟩ := Int.eq_ofNat_of_zero_le h.le
    have hk : 0 < k := by omega
    obtain ⟨⟨hle, hge⟩, -, -⟩ := rne_of_pos sig k hk
    rw [← mul_le_mul_iff_left₀ (by positivity : (0 : ℚ) < 2 ^ k), abs_sub_mul_two_pow, half_mul_two_pow hk,
      abs_sub_le_iff, sub_le_iff_le_add', sub_le_iff_le_add']
    exact ⟨by exact_mod_cast hle, by exact_mod_cast hge⟩

/-- A significand half a unit away from a multiple of the unit ends in exactly half a unit. -/
theorem mod_eq_half_of_tie {n sig k : Nat} (hk : 0 < k)
    (h : n * 2 ^ k = sig + 2 ^ (k - 1) ∨ sig = n * 2 ^ k + 2 ^ (k - 1)) : sig % 2 ^ k = 2 ^ (k - 1) := by
  have hpow : 2 ^ k = 2 * 2 ^ (k - 1) := by rw [← Nat.pow_succ', Nat.succ_eq_add_one, Nat.sub_add_cancel hk]
  have hpos : 0 < 2 ^ (k - 1) := by positivity
  have hlt : 2 ^ (k - 1) < 2 ^ k := by omega
  obtain ⟨j, rfl⟩ : ∃ j, sig = j * 2 ^ k + 2 ^ (k - 1) := by
    rcases h with h | h
    · cases n with
      | zero => omega
      | succ j =>
        rw [Nat.succ_mul] at h
        exact ⟨j, by omega⟩
    · exact ⟨n, h⟩
  rw [Nat.mul_add_mod', Nat.mod_eq_of_lt hlt]

/-- RNE is half a unit off only at a tie, where it is even. -/
theorem rne_even_of_abs_sub_eq_half {sig : Nat} {sh : Int} (h : |(rne sig sh : ℚ) - sig * 2 ^ (-sh)| = 1 / 2) :
    rne sig sh % 2 = 0 := by
  rcases le_or_gt sh 0 with hsh | hsh
  · rw [cast_rne_of_nonpos sig hsh] at h
    norm_num at h
  · obtain ⟨k, rfl⟩ := Int.eq_ofNat_of_zero_le hsh.le
    have hk : 0 < k := by omega
    obtain ⟨-, -, heven⟩ := rne_of_pos sig k hk
    have hdist : |(rne sig k : ℚ) * 2 ^ k - sig| = (2 ^ (k - 1) : Nat) := by
      rw [← abs_sub_mul_two_pow, h, half_mul_two_pow hk]
    have htie : rne sig k * 2 ^ k = sig + 2 ^ (k - 1) ∨ sig = rne sig k * 2 ^ k + 2 ^ (k - 1) := by
      rcases (abs_eq (by positivity)).mp hdist with h | h
      · exact .inl (by exact_mod_cast (by linarith : (rne sig k : ℚ) * 2 ^ k = sig + (2 ^ (k - 1) : Nat)))
      · exact .inr (by exact_mod_cast (by linarith : (sig : ℚ) = rne sig k * 2 ^ k + (2 ^ (k - 1) : Nat)))
    exact heven (mod_eq_half_of_tie hk htie)

/-- A natural number within half a unit of `x` leaves every other one at least half a unit away. -/
theorem half_le_abs_sub_of_ne {n m : Nat} {x : ℚ} (h : |(n : ℚ) - x| ≤ 1 / 2) (hne : m ≠ n) :
    1 / 2 ≤ |(m : ℚ) - x| := by
  have hone : (1 : ℚ) ≤ |(m : ℚ) - n| := by
    have : (1 : Int) ≤ |(m : Int) - n| := Int.one_le_abs (by omega)
    exact_mod_cast this
  have htri : |(m : ℚ) - n| ≤ |(m : ℚ) - x| + |(n : ℚ) - x| := by
    rw [abs_sub_comm (n : ℚ) x]
    exact abs_sub_le _ _ _
  linarith

/-- Settles O36: RNE is within half a unit, so every other natural number is at least half a unit away; as near only at a
tie, where RNE is even. -/
theorem roundingIsNearestTiesToEven : Obligations.RoundingIsNearestTiesToEven := by
  intro sig sh
  have hhalf := abs_rne_sub_le_half sig sh
  refine ⟨cast_rne_of_nonpos sig, fun m => ?_, fun m hne heq => ?_⟩
  · rcases eq_or_ne m (rne sig sh) with rfl | hne
    · exact le_rfl
    · exact hhalf.trans (half_le_abs_sub_of_ne hhalf hne)
  · exact rne_even_of_abs_sub_eq_half (hhalf.antisymm (heq ▸ half_le_abs_sub_of_ne hhalf hne))

/-- RNE gives 0 up to half a unit, the tie included: 0 is the even neighbour. -/
theorem rne_eq_zero_iff (sig : Nat) (sh : Int) : rne sig sh = 0 ↔ (sig : ℚ) * 2 ^ (-sh) ≤ 1 / 2 := by
  have hhalf := abs_rne_sub_le_half sig sh
  constructor
  · intro h
    rw [h, Nat.cast_zero, zero_sub, abs_neg] at hhalf
    exact (le_abs_self _).trans hhalf
  · intro h
    by_contra hne
    have hpos : (1 : ℚ) ≤ rne sig sh := by exact_mod_cast Nat.one_le_iff_ne_zero.mpr hne
    obtain ⟨hup, -⟩ := abs_sub_le_iff.mp hhalf
    have hone : (rne sig sh : ℚ) = 1 := by linarith
    have htie : |(rne sig sh : ℚ) - sig * 2 ^ (-sh)| = 1 / 2 :=
      hhalf.antisymm (le_trans (by linarith) (le_abs_self _))
    have heven := rne_even_of_abs_sub_eq_half htie
    rw [show rne sig sh = 1 by exact_mod_cast hone] at heven
    omega

/-! ### The fields and the value of a binary32 operand (R80) -/

theorem exp32_eq (w : Word) : exp32 w = w.toNat / 2 ^ 23 % 2 ^ 8 := rfl

theorem frac32_eq (w : Word) : frac32 w = w.toNat % 2 ^ 23 := field_low _ _

theorem sign32_eq (w : Word) : sign32 w = w.getLsbD 31 := by
  rw [sign32, field, BitVec.getLsbD, Nat.testBit_eq_decide_div_mod_eq]
  rfl

theorem unpack32_of_nan {w : Word} (he : exp32 w = 255) (hf : frac32 w ≠ 0) : unpack32 w = .nan (sign32 w) := by
  simp [unpack32, he, hf]

theorem unpack32_of_subnormal {w : Word} (he : exp32 w = 0) (hf : frac32 w ≠ 0) :
    unpack32 w = .fin (sign32 w) (frac32 w) (-149) := by
  simp [unpack32, he, hf]

/-- A finite nonzero class has a nonzero significand. -/
theorem sig_ne_zero_of_unpack32 {w : Word} {s : Bool} {sig : Nat} {q : Int} (h : unpack32 w = .fin s sig q) :
    sig ≠ 0 := by
  unfold unpack32 at h
  split_ifs at h with hnan hinf hzero hsub <;> injection h with hs hsig hq
  · rw [← hsig]
    exact fun hf => hzero ⟨hsub, hf⟩
  · omega

/-- The magnitude and the sign of a finite nonzero value. -/
theorem abs_and_sign_of_fin (s : Bool) {sig : Nat} (hsig : sig ≠ 0) (q : Int) :
    |signum s * sig * 2 ^ q| = sig * 2 ^ q ∧ (signum s * sig * 2 ^ q < 0 ↔ s = true) := by
  have hpos : (0 : ℚ) < sig * 2 ^ q := by positivity
  cases s
  · simp only [signum, Bool.false_eq_true, if_false, one_mul, iff_false, not_lt]
    exact ⟨abs_of_pos hpos, hpos.le⟩
  · simp only [signum, if_true, neg_mul, one_mul, iff_true, abs_neg, Left.neg_neg_iff]
    exact ⟨abs_of_pos hpos, hpos⟩

/-- A word with a value other than 0 is of the finite class, and the value's magnitude and sign are the class's. -/
theorem exists_fin_of_value32 {w : Word} {v : ℚ} (h : value32 w = some v) (hv : v ≠ 0) :
    ∃ s sig q, unpack32 w = .fin s sig q ∧ sig ≠ 0 ∧ |v| = sig * 2 ^ q ∧ (v < 0 ↔ s = true) := by
  cases hu : unpack32 w with
  | nan s => simp [value32, hu, Canon.value] at h
  | inf s => simp [value32, hu, Canon.value] at h
  | zero s => exact absurd (by simpa [value32, hu, Canon.value] using h.symm) hv
  | fin s sig q =>
    have hsig := sig_ne_zero_of_unpack32 hu
    obtain rfl : signum s * sig * 2 ^ q = v := by simpa [value32, hu, Canon.value] using h
    obtain ⟨habs, hneg⟩ := abs_and_sign_of_fin s hsig q
    exact ⟨s, sig, q, rfl, hsig, habs, hneg⟩

/-! ### ENC by the class of its operand (R130) -/

theorem resultOfInstr_encInstr (f : Fmt) (a : Word) :
    resultOfInstr (encInstr f) a = BitVec.ofNat 32 (enc f a) := by
  cases f <;> rfl

/-- Every ENC completes with `D = zext_32(ENC(F, A))` (R130). -/
theorem answers_encInstr (f : Fmt) : Answers (encInstr f) (fun a => BitVec.ofNat 32 (enc f a)) := by
  intro s r rest h
  rw [exec_of_pending _ h, resultOfInstr_encInstr]
  rfl

/-- ENC completes with the word `d` exactly when `d` is its pattern. -/
theorem exec_encInstr_iff {s : State} {r : Request} {rest : List Request} (f : Fmt) (h : s.pending = r :: rest)
    (d : Word) :
    exec (encInstr f) s = .next { s with rspValid := true, rspIll := false, rspD := d } ↔
      BitVec.ofNat 32 (enc f r.a) = d := by
  rw [answers_encInstr f s r rest h]
  simp

theorem enc_of_nan {f : Fmt} {a : Word} {s : Bool} (h : unpack32 a = .nan s) : enc f a = f.qnan := by
  simp [enc, h]

theorem enc_of_inf {f : Fmt} {a : Word} {s : Bool} (h : unpack32 a = .inf s) :
    enc f a = if f.spec.kind = .ieee then f.inf s else f.sat s := by
  simp [enc, h]

theorem enc_of_zero {f : Fmt} {a : Word} {s : Bool} (h : unpack32 a = .zero s) : enc f a = f.zero s := by
  simp [enc, h]

theorem enc_of_fin {f : Fmt} {a : Word} {s : Bool} {sig : Nat} {q : Int} (h : unpack32 a = .fin s sig q) :
    enc f a = encFin f s sig q := by
  simp [enc, h]

/-- Settles O37: an all-ones exponent with a nonzero fraction is the class NaN, which encodes to `QNAN(F)`. -/
theorem naNEncodesToOnePattern : Obligations.NaNEncodesToOnePattern := by
  intro f s r rest hp he hf
  have hnan := unpack32_of_nan ((exp32_eq r.a).trans he) (by rwa [frac32_eq])
  rw [exec_encInstr_iff f hp, enc_of_nan hnan]
  cases f <;> rfl

/-- Settles O38: the two words are the infinities, which encode to `INF(F, s)` or `SAT(F, s)` by the kind. -/
theorem infinityEncoding : Obligations.InfinityEncoding := by
  intro f neg s r rest hp ha
  have hinf : unpack32 r.a = .inf neg := by rw [ha]; cases neg <;> decide
  rw [exec_encInstr_iff f hp, enc_of_inf hinf]
  cases f <;> cases neg <;> rfl

/-- Settles O39: the two words are the zeros, which encode to `ZERO(F, s)`. -/
theorem zeroEncoding : Obligations.ZeroEncoding := by
  intro f neg s r rest hp ha
  have hzero : unpack32 r.a = .zero neg := by rw [ha]; cases neg <;> decide
  rw [exec_encInstr_iff f hp, enc_of_zero hzero]
  cases f <;> cases neg <;> rfl

/-- Settles O43: a zero exponent with a nonzero fraction is the class of the exact value `fraction × 2^-149`; the rule's own
example is evaluated. -/
theorem subnormalInputIsNotFlushed : Obligations.SubnormalInputIsNotFlushed := by
  constructor
  · intro f s r rest hp he hf
    have hfin := unpack32_of_subnormal ((exp32_eq r.a).trans he) (by rwa [frac32_eq])
    rw [frac32_eq, sign32_eq] at hfin
    refine ⟨by rw [value32, hfin]; rfl, ?_⟩
    rw [exec_encInstr_iff f hp, enc_of_fin hfin]
  · intro s r rest hp ha
    have hpat : enc .bf16 r.a = 0x0002 := by rw [ha]; decide
    exact (exec_encInstr_iff .bf16 hp _).mpr (congrArg (BitVec.ofNat 32) hpat)

/-! ### Saturation (R136) -/

theorem encFin_of_saturated {f : Fmt} {s : Bool} {sig : Nat} {q : Int} (hk : f.spec.kind ≠ .ieee)
    (h : maxValue f < sig * 2 ^ q) : encFin f s sig q = f.sat s := by
  rw [encFin, if_pos ⟨hk, (magGt_iff _ _ _ _).mpr h⟩]

/-- A finite input beyond `MAXF(F)` of a format without infinities gives `SAT(F, s)` with the sign of its value. -/
theorem enc_of_maxValue_lt {f : Fmt} (hk : f.spec.kind ≠ .ieee) {a : Word} {v : ℚ} (h : value32 a = some v)
    (hv : maxValue f < |v|) : enc f a = f.sat (decide (v < 0)) := by
  have hmax : 0 ≤ maxValue f := by unfold maxValue; positivity
  obtain ⟨s, sig, q, hu, -, habs, hneg⟩ := exists_fin_of_value32 h (abs_pos.mp (hmax.trans_lt hv))
  rw [enc_of_fin hu, encFin_of_saturated hk (habs ▸ hv)]
  simp [hneg]

theorem maxValue_e4m3fn : maxValue .e4m3fn = 448 := by norm_num [maxValue, Fmt.maxSig, Fmt.maxExp]

theorem maxValue_e4m3fnuz : maxValue .e4m3fnuz = 240 := by norm_num [maxValue, Fmt.maxSig, Fmt.maxExp]

/-- Settles O40: 448 and 240 are `MAXF` of the two formats, beyond which ENC gives `SAT(F, s)`. -/
theorem saturationOfFiniteFormats : Obligations.SaturationOfFiniteFormats := by
  intro s r rest v hp hval
  constructor
  · intro hv
    refine (exec_encInstr_iff .e4m3fn hp _).mpr ?_
    rw [enc_of_maxValue_lt (by decide) hval (by rwa [maxValue_e4m3fn])]
    by_cases hneg : v < 0 <;> simp [hneg, Fmt.sat, Fmt.spec, Fmt.maxPat]
  · intro hv
    refine (exec_encInstr_iff .e4m3fnuz hp _).mpr ?_
    rw [enc_of_maxValue_lt (by decide) hval (by rwa [maxValue_e4m3fnuz])]
    by_cases hneg : v < 0 <;> simp [hneg, Fmt.sat, Fmt.spec, Fmt.maxPat]

/-! ### Underflow to zero (R144) -/

theorem zero_lt_width (f : Fmt) (s : Bool) : f.zero s < 2 ^ f.spec.w := by
  cases f <;> cases s <;> decide

theorem sat_lt_width (f : Fmt) (s : Bool) : f.sat s < 2 ^ f.spec.w := by
  cases f <;> cases s <;> decide

theorem inf_ne_zero (f : Fmt) (s : Bool) : f.inf s ≠ f.zero s := by
  cases f <;> cases s <;> decide

theorem sat_ne_zero (f : Fmt) (s : Bool) : f.sat s ≠ f.zero s := by
  cases f <;> cases s <;> decide

theorem packN_lt_width (f : Fmt) (s : Bool) (n : Nat) (t : Int) : f.packN s n t < 2 ^ f.spec.w := by
  unfold Fmt.packN
  split <;> exact pat_lt _ _ _ _

/-- Everything the last lines of ENC do with a nonzero rounded magnitude: a carry moves one binade up, then the magnitude
overflows or is packed. -/
theorem finishEnc_cases (f : Fmt) (s : Bool) {n : Nat} (hn : n ≠ 0) (t : Int) :
    finishEnc f s n t = f.inf s ∨
    ∃ n' t', finishEnc f s n t = f.packN s n' t' ∧ n' ≠ 0 ∧ t ≤ t' ∧ (n' : ℚ) * 2 ^ t' ≤ maxValue f := by
  simp only [finishEnc, if_neg hn]
  generalize hn' : (if n = 2 ^ (f.spec.m + 1) then 2 ^ f.spec.m else n) = n'
  generalize ht' : (if n = 2 ^ (f.spec.m + 1) then t + 1 else t) = t'
  split
  case isTrue => exact .inl rfl
  case isFalse hgt =>
    refine .inr ⟨n', t', rfl, ?_, ?_, not_lt.mp (mt (magGt_iff _ _ _ _).mpr hgt)⟩
    · rw [← hn']
      split <;> positivity
    · rw [← ht']
      split <;> omega

@[simp] theorem finishEnc_zero (f : Fmt) (s : Bool) (t : Int) : finishEnc f s 0 t = f.zero s := by
  simp [finishEnc]

theorem finishEnc_lt_width (f : Fmt) (s : Bool) (n : Nat) (t : Int) : finishEnc f s n t < 2 ^ f.spec.w := by
  rcases eq_or_ne n 0 with rfl | hn
  · rw [finishEnc_zero]
    exact zero_lt_width f s
  · obtain h | ⟨n', t', h, -, -, -⟩ := finishEnc_cases f s hn t <;> rw [h]
    · exact pat_lt _ _ _ _
    · exact packN_lt_width _ _ _ _

/-- The encoding of a finite value fits the format. -/
theorem encFin_lt_width (f : Fmt) (s : Bool) (sig : Nat) (q : Int) : encFin f s sig q < 2 ^ f.spec.w := by
  unfold encFin
  split
  · exact sat_lt_width f s
  · exact finishEnc_lt_width _ _ _ _

/-- Only zero fields make a zero. -/
theorem pat_ne_zero {f : Fmt} {s : Bool} {e m : Nat} (h : e % 2 ^ f.spec.e ≠ 0 ∨ m % 2 ^ f.spec.m ≠ 0) :
    f.pat s e m ≠ f.zero s := by
  intro heq
  have he : e % 2 ^ f.spec.e = f.expOf (f.zero s) := by rw [← heq, expOf_pat]
  have hm : m % 2 ^ f.spec.m = f.manOf (f.zero s) := by rw [← heq, manOf_pat]
  have hzero : f.expOf (f.zero s) = 0 ∧ f.manOf (f.zero s) = 0 := by cases f <;> cases s <;> decide
  omega

/-- `MAXF(F)` is below the binade above the largest exponent (R76, R77). -/
theorem maxValue_lt (f : Fmt) : maxValue f < 2 ^ (f.emax + 1) := by
  cases f <;> norm_num [maxValue, Fmt.maxSig, Fmt.maxExp, Fmt.emax, Fmt.topExp, Fmt.spec]

theorem topExp_lt (f : Fmt) : f.topExp < 2 ^ f.spec.e := by
  cases f <;> decide

/-- A normal magnitude up to `MAXF(F)` has an exponent field between 1 and the largest finite one. -/
theorem expField_of_le_maxValue {f : Fmt} {n : Nat} {t : Int} (ht : f.emin - f.spec.m ≤ t) (hn : 2 ^ f.spec.m ≤ n)
    (hmax : (n : ℚ) * 2 ^ t ≤ maxValue f) :
    0 < (t + f.spec.m + f.spec.bias).toNat ∧ (t + f.spec.m + f.spec.bias).toNat ≤ f.topExp := by
  have hpow : (2 : ℚ) ^ (f.spec.m + t) < 2 ^ (f.emax + 1) := by
    calc (2 : ℚ) ^ (f.spec.m + t) = (2 ^ f.spec.m : Nat) * 2 ^ t := by
          rw [zpow_add₀ two_ne_zero, zpow_natCast, Nat.cast_pow, Nat.cast_ofNat]
      _ ≤ n * 2 ^ t := by gcongr
      _ < 2 ^ (f.emax + 1) := hmax.trans_lt (maxValue_lt f)
  have hle : f.spec.m + t < f.emax + 1 := (zpow_lt_zpow_iff_right₀ one_lt_two).mp hpow
  simp only [Fmt.emax, Fmt.emin] at hle ht
  omega

/-- A nonzero magnitude up to `MAXF(F)`, at least in the subnormal frame, packs to no zero. -/
theorem packN_ne_zero {f : Fmt} (s : Bool) {n : Nat} {t : Int} (ht : f.emin - f.spec.m ≤ t) (hn : n ≠ 0)
    (hmax : (n : ℚ) * 2 ^ t ≤ maxValue f) : f.packN s n t ≠ f.zero s := by
  unfold Fmt.packN
  split
  case isTrue hsub =>
    exact pat_ne_zero (.inr (by rwa [Nat.mod_eq_of_lt hsub]))
  case isFalse hnorm =>
    obtain ⟨hpos, hle⟩ := expField_of_le_maxValue ht (not_lt.mp hnorm) hmax
    exact pat_ne_zero (.inl (by rw [Nat.mod_eq_of_lt (hle.trans_lt (topExp_lt f))]; omega))

/-- The last lines of ENC give a zero only for a magnitude rounded to 0. -/
theorem finishEnc_eq_zero_iff {f : Fmt} (s : Bool) (n : Nat) {t : Int} (ht : f.emin - f.spec.m ≤ t) :
    finishEnc f s n t = f.zero s ↔ n = 0 := by
  rcases eq_or_ne n 0 with rfl | hn
  · simp
  · refine iff_of_false ?_ hn
    obtain h | ⟨n', t', h, hn', ht', hmax⟩ := finishEnc_cases f s hn t <;> rw [h]
    · exact inf_ne_zero f s
    · exact packN_ne_zero s (ht.trans ht') hn' hmax

theorem underflowBound_eq (f : Fmt) : underflowBound f = 1 / 2 * 2 ^ (f.emin - f.spec.m) := by
  cases f <;> norm_num [underflowBound, Fmt.emin, Fmt.spec]

theorem underflowBound_lt_maxValue (f : Fmt) : underflowBound f < maxValue f := by
  cases f <;> norm_num [underflowBound, maxValue, Fmt.maxSig, Fmt.maxExp]

theorem emin_sub_le_targetExp (f : Fmt) (sig : Nat) (q : Int) : f.emin - f.spec.m ≤ targetExp f sig q :=
  sub_le_sub_right (le_max_right _ _) _

/-- Half a unit of the target frame is half the smallest subnormal, but for values of the normal range, which exceed both. -/
theorem le_half_target_iff {f : Fmt} {sig : Nat} (hsig : sig ≠ 0) (q : Int) :
    (sig : ℚ) * 2 ^ q ≤ 1 / 2 * 2 ^ (targetExp f sig q) ↔ (sig : ℚ) * 2 ^ q ≤ underflowBound f := by
  rw [underflowBound_eq]
  rcases le_total ((bitlen sig - 1 : Nat) + q) f.emin with hk | hk
  · rw [targetExp, max_eq_right hk]
  · have hlow : (2 : ℚ) ^ ((bitlen sig - 1 : Nat) + q) ≤ sig * 2 ^ q := by
      rw [zpow_add₀ two_ne_zero, zpow_natCast]
      gcongr
      exact_mod_cast two_pow_bitlen_le hsig
    have habove : ∀ x : Int, x ≤ (bitlen sig - 1 : Nat) + q → ¬ (sig : ℚ) * 2 ^ q ≤ 1 / 2 * 2 ^ x := by
      intro x hx
      have hmono : (2 : ℚ) ^ x ≤ 2 ^ ((bitlen sig - 1 : Nat) + q) := zpow_le_zpow_right₀ one_le_two hx
      have hpos : (0 : ℚ) < 2 ^ x := by positivity
      linarith
    rw [targetExp, max_eq_left hk]
    exact iff_of_false (habove _ (by omega)) (habove _ (by omega))

/-- A nonzero value rounds to 0 in the target frame up to half the smallest subnormal. -/
theorem rne_target_eq_zero_iff {f : Fmt} {sig : Nat} (hsig : sig ≠ 0) (q : Int) :
    rne sig (targetExp f sig q - q) = 0 ↔ (sig : ℚ) * 2 ^ q ≤ underflowBound f := by
  have hpos : (0 : ℚ) < 2 ^ targetExp f sig q := by positivity
  rw [rne_eq_zero_iff, ← le_half_target_iff hsig, neg_sub, zpow_sub₀ two_ne_zero, mul_div_assoc', div_le_iff₀ hpos]

theorem encFin_eq_zero_iff {f : Fmt} (s : Bool) {sig : Nat} (hsig : sig ≠ 0) (q : Int) :
    encFin f s sig q = f.zero s ↔ (sig : ℚ) * 2 ^ q ≤ underflowBound f := by
  unfold encFin
  split
  case isTrue hsat =>
    obtain ⟨-, hgt⟩ := hsat
    have habove : underflowBound f < sig * 2 ^ q :=
      (underflowBound_lt_maxValue f).trans ((magGt_iff _ _ _ _).mp hgt)
    exact iff_of_false (sat_ne_zero f s) (not_le.mpr habove)
  case isFalse =>
    rw [finishEnc_eq_zero_iff s _ (emin_sub_le_targetExp f sig q), rne_target_eq_zero_iff hsig]

/-- The zero of a format as a result word (R137). -/
theorem ofNat_zero (f : Fmt) (s : Bool) :
    (BitVec.ofNat 32 (f.zero s) : Word) = if f = .e4m3fnuz then 0 else if s then 2 ^ (f.spec.w - 1) else 0 := by
  cases f <;> cases s <;> decide

/-- Patterns of a format's width are told apart by their result words. -/
theorem ofNat_eq_ofNat_iff {f : Fmt} {b b' : Nat} (h : b < 2 ^ f.spec.w) (h' : b' < 2 ^ f.spec.w) :
    BitVec.ofNat 32 b = BitVec.ofNat 32 b' ↔ b = b' := by
  have hw : 2 ^ f.spec.w ≤ 2 ^ 32 := by cases f <;> decide
  rw [BitVec.toNat_eq, BitVec.toNat_ofNat, BitVec.toNat_ofNat, Nat.mod_eq_of_lt (h.trans_le hw),
    Nat.mod_eq_of_lt (h'.trans_le hw)]

/-- Settles O42: the value rounds to 0 in the target frame up to half the smallest subnormal, and nothing else that ENC does
with a finite nonzero value gives a zero. -/
theorem underflowThresholdAndSign : Obligations.UnderflowThresholdAndSign := by
  intro f s r rest v hp hval hv
  obtain ⟨neg, sig, q, hu, hsig, habs, hneg⟩ := exists_fin_of_value32 hval hv
  have hfit : enc f r.a < 2 ^ f.spec.w := by
    rw [enc_of_fin hu]
    exact encFin_lt_width f neg sig q
  simp only [hneg]
  rw [exec_encInstr_iff f hp, ← ofNat_zero, ofNat_eq_ofNat_iff hfit (zero_lt_width f neg), enc_of_fin hu,
    encFin_eq_zero_iff neg hsig, habs]

end Sys2Proof.Machine

/-! ## Exceptions: IllegalCommand and completion (60_exceptions.md R210, R211) -/

namespace Sys2Proof

/-- The causes of IllegalCommand (R210), on the numbers in the fields. Which values of `FB` and `SEL` are among them depends
on the family of `OP`: DEC, ENC and SPECQ, then CVT, then CONST; the remaining codes are reserved. -/
theorem Fields.legal_eq_false_iff_toNat {c : Fields} :
    c.legal = false ↔
      c.op.toNat ≥ 5 ∨ c.fa.toNat ≥ 4 ∨ (c.op.toNat = 2 ∧ c.fb.toNat ≥ 4) ∨ (c.op.toNat ≠ 2 ∧ c.fb.toNat ≠ 0) ∨
      (c.op.toNat ≠ 3 ∧ c.sel.toNat ≠ 0) ∨ c.sel.toNat ≥ 6 ∨ (c.sel.toNat ∈ [4, 5] ∧ c.fa.toNat ∈ [2, 3]) ∨
      c.rsvd.toNat ≠ 0 := by
  rw [← Bool.not_eq_true, Fields.legal_iff_toNat]
  simp only [List.mem_cons, List.not_mem_nil, or_false]
  obtain hplain | hcvt | hconst | hreserved :
      (c.op.toNat = 0 ∨ c.op.toNat = 1 ∨ c.op.toNat = 4) ∨ c.op.toNat = 2 ∨ c.op.toNat = 3 ∨ 5 ≤ c.op.toNat := by
    omega
  · omega
  · omega
  · omega
  · omega

end Sys2Proof

namespace Sys2Proof.Machine

/-- An illegal word does not decode, so running it is `raise IllegalCommand` (R210, R212). -/
theorem runHead_of_not_legal {s : State} {r : Request} {rest : List Request} (h : s.pending = r :: rest)
    (hl : legal r.cmd = false) : runHead s = .next s.raiseIllegal := by
  obtain ⟨hlegal, -⟩ | ⟨-, e, he⟩ := legal_and_decode_cases r.cmd
  · rw [hl] at hlegal
    cases hlegal
  · rw [runHead_of_pending h, runCommand_error he]

/-- Settles O22: the causes are read off the fields of the word; an illegal word is answered by `raise IllegalCommand`,
which sets the three response signals only. -/
theorem illegalCommandIsFlaggedAndHarmless : Obligations.IllegalCommandIsFlaggedAndHarmless := by
  refine ⟨fun w => ?causes, fun s r rest h hl => runHead_of_not_legal h hl⟩
  case causes => simpa [legal] using Fields.legal_eq_false_iff_toNat (c := Fields.ofWord w)

/-- Every instruction completes, with its result word (R211). -/
theorem answers_resultOfInstr (i : Instr) : Answers i (resultOfInstr i) :=
  fun _ _ _ h => exec_of_pending i h

/-- Settles O23: the data word is the instruction's result on the operand. -/
theorem everyInstructionCompletesUnflagged : Obligations.EveryInstructionCompletesUnflagged :=
  fun i s r rest h => ⟨resultOfInstr i r.a, answers_resultOfInstr i s r rest h⟩

end Sys2Proof.Machine

/-! ## The machine: invariant, order, liveness, one cycle (10_state.md R23 to R28, 70_reset_and_hazards.md) -/

namespace Sys2Proof.Machine

/-- Settles O14: every step keeps each of the four parts, `State.Inv.of_step`. -/
theorem stepKeepsTheMachineInvariant : Obligations.StepKeepsTheMachineInvariant :=
  fun _ _ hinv hstep => hinv.of_step hstep

/-! ### The order of responses, a reset included -/

/-- An edge moves responses and requests, but loses none: what the host has, what is queued, and what is still to be
accepted make up the sequence of before. -/
theorem State.Inv.flow_eq_of_step {s t : State} (h : s.Inv) (hstep : step s = .next t) :
    s.flow = t.received ++ s.queued.map execRequest ++ (t.onChannel ++ t.program).map execRequest := by
  obtain ⟨-, -, -, -, -, -, -, -, hprog, hrec, -⟩ := step_frame hstep
  calc s.flow
      = s.nextReceived ++ ((if s.delivers then s.pending.tail else s.pending) ++ s.onChannel ++ s.program).map
          execRequest := by
        simp only [State.flow, State.unanswered, List.map_append, ← List.append_assoc, h.nextReceived_append]
    _ = t.received ++ s.queued.map execRequest ++ (t.onChannel ++ t.program).map execRequest := by
        simp only [← s.queued_append, hprog, hrec, onChannel_step hstep, List.map_append, List.append_assoc]

/-- Settles O17: without reset the sequence stays the same; with it, `pending` is emptied, and the requests that were queued
at the edge lose their responses. -/
theorem stepKeepsTheOrderOfResponses : Obligations.StepKeepsTheOrderOfResponses :=
  fun s _ hinv hstep => ⟨hinv.flow_step hstep, fun _ => ⟨s.queued.map execRequest, hinv.flow_eq_of_step hstep, rfl⟩⟩

/-! ### Liveness -/

theorem State.resetting_eq_false {s : State} : s.resetting = false ↔ s.rst = false ∧ s.choice.reset = false := by
  simp [State.resetting]

theorem State.NoReset.resetting_eq_false {n : Nat} {s : State} (h : s.NoReset (n + 1)) : s.resetting = false :=
  State.resetting_eq_false.mpr ⟨h.1, choice_eq_choiceAt s ▸ h.2 0 n.succ_pos⟩

theorem State.delivers_eq_false_of_not_offered {s : State} (h : s.rspValid = false) : s.delivers = false := by
  simp [State.delivers, h]

/-- One cycle of waiting for a response: the oldest request stays the oldest, and it is answered exactly when the open
latency says so. -/
theorem step_of_waiting {s t : State} {r : Request} {rest : List Request} (hp : s.pending = r :: rest)
    (hreset : s.resetting = false) (hv : s.rspValid = false) (hstep : step s = .next t) :
    (∃ rest', t.pending = r :: rest') ∧ t.rspValid = s.choice.respond ∧
    (s.choice.respond = true → (⟨t.rspD, t.rspIll⟩ : Response) = execRequest r) := by
  have hheld : s.holdsResponse = false := by simp [State.holdsResponse, hv]
  have hnext : s.advance.pending = r :: (rest ++ if s.accepts then [s.offered] else []) := by
    simp [State.nextPending_of_not_resetting hreset, State.queued, State.delivers_eq_false_of_not_offered hv, hp]
  cases hc : s.choice.respond with
  | true =>
    rw [step_of_answers (State.answers_eq_true.mpr ⟨hreset, hheld, hc⟩), runHead_eq_execRequest hnext] at hstep
    obtain rfl := Host.Outcome.next.inj hstep
    exact ⟨⟨_, hnext⟩, rfl, fun _ => rfl⟩
  | false =>
    rw [step_of_not_answers (by simp [State.answers, hc])] at hstep
    obtain rfl := Host.Outcome.next.inj hstep
    exact ⟨⟨_, hnext⟩, hheld, by simp⟩

/-- An offered response is `Exec` of the oldest request. -/
theorem State.Inv.offered_eq_execRequest {s : State} (h : s.Inv) {r : Request} {rest : List Request}
    (hp : s.pending = r :: rest) (hv : s.rspValid = true) :
    (⟨s.rspD, s.rspIll⟩ : Response) = execRequest r := by
  obtain ⟨r', rest', hp', hr⟩ := h.answered hv
  obtain ⟨rfl, -⟩ := List.cons.inj (hp.symm.trans hp')
  exact hr

/-- Settles O19, by induction on the number of cycles until the latency lets the FFC respond: the response is on offer now,
or comes with the next cycle, or the oldest request waits one cycle more. -/
theorem pendingRequestIsEventuallyAnswered : Obligations.PendingRequestIsEventuallyAnswered := by
  intro n s r rest hinv hp hno hrespond
  induction n generalizing s rest with
  | zero =>
    cases hv : s.rspValid with
    | true => exact ⟨0, Nat.zero_le _, s, rfl, hv, by simp [hp], hinv.offered_eq_execRequest hp hv⟩
    | false =>
      obtain ⟨t, hstep⟩ := exists_step s
      obtain ⟨⟨rest', hp'⟩, hv', hr⟩ := step_of_waiting hp hno.resetting_eq_false hv hstep
      rw [← choice_eq_choiceAt] at hrespond
      exact ⟨1, le_rfl, t, run_succ hstep 0, hv'.trans hrespond, by simp [hp'], hr hrespond⟩
  | succ n ih =>
    cases hv : s.rspValid with
    | true => exact ⟨0, Nat.zero_le _, s, rfl, hv, by simp [hp], hinv.offered_eq_execRequest hp hv⟩
    | false =>
      obtain ⟨t, hstep⟩ := exists_step s
      obtain ⟨⟨rest', hp'⟩, -, -⟩ := step_of_waiting hp hno.resetting_eq_false hv hstep
      rw [← choiceAt_step hstep n] at hrespond
      obtain ⟨k, hk, u, hrun, hu⟩ := ih t rest' (hinv.of_step hstep) hp' (hno.of_step hstep) hrespond
      exact ⟨k + 1, by omega, u, (run_succ hstep k).trans hrun, hu⟩

/-- While req_ready is 0 nothing is accepted, so `pending` does not grow. -/
theorem State.length_nextPending_le_of_not_ready {s : State} (h : s.reqReady = false) :
    s.nextPending.length ≤ s.pending.length := by
  have hacc : s.accepts = false := by simp [State.accepts, h]
  unfold State.nextPending State.queued
  split_ifs <;> simp_all

/-- Settles O20, by induction on the number of cycles until the timing lets the FFC be ready: req_ready is 1 now, or nothing
is accepted, so the capacity is still left in the next cycle. -/
theorem capacityIsEventuallyOffered : Obligations.CapacityIsEventuallyOffered := by
  intro n s hinv hroom hno hready
  induction n generalizing s with
  | zero =>
    cases hr : s.reqReady with
    | true => exact ⟨0, Nat.zero_le _, s, rfl, hr⟩
    | false =>
      obtain ⟨t, hstep⟩ := exists_step s
      obtain ⟨-, -, -, hready', -⟩ := step_frame hstep
      have hroom' := (State.length_nextPending_le_of_not_ready hr).trans_lt hroom
      have hreset := (State.resetting_eq_false.mp hno.resetting_eq_false).2
      rw [← choice_eq_choiceAt] at hready
      exact ⟨1, le_rfl, t, run_succ hstep 0, by simp [hready', State.nextReqReady, hreset, hroom', hready]⟩
  | succ n ih =>
    cases hr : s.reqReady with
    | true => exact ⟨0, Nat.zero_le _, s, rfl, hr⟩
    | false =>
      obtain ⟨t, hstep⟩ := exists_step s
      have hroom' : t.pending.length < Config.maxOutstanding :=
        (step_frame hstep).2.1 ▸ (State.length_nextPending_le_of_not_ready hr).trans_lt hroom
      rw [← choiceAt_step hstep n] at hready
      obtain ⟨k, hk, u, hrun, hu⟩ := ih t (hinv.of_step hstep) hroom' (hno.of_step hstep) hready
      exact ⟨k + 1, by omega, u, (run_succ hstep k).trans hrun, hu⟩

/-! ### Every latency -/

/-- The choices of a cycle without reset; the FFC answers or waits. -/
def latencyCycle (respond : Bool) : CycleChoice where
  reset := false
  offer := false
  rspReady := false
  ready := false
  respond := respond

/-- The timing of a response after `n` cycles of waiting. -/
def latencySched (n : Nat) : List CycleChoice := List.replicate n (latencyCycle false) ++ [latencyCycle true]

@[simp] theorem latencySched_zero : latencySched 0 = [latencyCycle true] := rfl

@[simp] theorem latencySched_succ (n : Nat) : latencySched (n + 1) = latencyCycle false :: latencySched n := rfl

/-- Under that timing nothing is offered for `n` cycles, and in the next one `Exec` of the oldest request is. -/
theorem run_latencySched {n : Nat} {s : State} {r : Request} {rest : List Request} (hp : s.pending = r :: rest)
    (hrst : s.rst = false) (hv : s.rspValid = false) (hs : s.sched = latencySched n) :
    (∀ k ≤ n, ∃ t, run k s = .next t ∧ t.rspValid = false) ∧
    (∃ t, run (n + 1) s = .next t ∧ t.rspValid = true ∧ (⟨t.rspD, t.rspIll⟩ : Response) = execRequest r) := by
  induction n generalizing s rest with
  | zero =>
    obtain ⟨t, hstep⟩ := exists_step s
    have hc : s.choice = latencyCycle true := by simp [State.choice, hs]
    obtain ⟨-, hv', hr⟩ := step_of_waiting hp (by simp [State.resetting, hrst, hc, latencyCycle]) hv hstep
    rw [hc] at hv' hr
    exact ⟨fun k hk => ⟨s, by rw [Nat.le_zero.mp hk, run_zero], hv⟩, t, run_succ hstep 0, hv', hr rfl⟩
  | succ n ih =>
    obtain ⟨t, hstep⟩ := exists_step s
    obtain ⟨hrst', -, -, -, -, -, -, -, -, -, hs', -⟩ := step_frame hstep
    have hc : s.choice = latencyCycle false := by simp [State.choice, hs]
    obtain ⟨⟨rest', hp'⟩, hv', -⟩ := step_of_waiting hp (by simp [State.resetting, hrst, hc, latencyCycle]) hv hstep
    rw [hc] at hrst' hv'
    obtain ⟨hwait, v, hrun, hoffer⟩ := ih hp' hrst' hv' (by rw [hs', hs, latencySched_succ, List.tail_cons])
    refine ⟨fun k hk => ?_, v, (run_succ hstep _).trans hrun, hoffer⟩
    cases k with
    | zero => exact ⟨s, rfl, hv⟩
    | succ k =>
      obtain ⟨w, hw, hwv⟩ := hwait k (by omega)
      exact ⟨w, (run_succ hstep k).trans hw, hwv⟩

/-- Settles O21: `n` cycles of waiting, then one in which the FFC answers. -/
theorem everyLatencyIsPossible : Obligations.EveryLatencyIsPossible :=
  fun n _ _ _ hp hrst hv => ⟨latencySched n, run_latencySched hp hrst hv rfl⟩

/-! ### One cycle -/

/-- Settles O6: the four cases of `step`, `runHead` and `runCommand`. -/
theorem stepRunsDecodedCommand : Obligations.StepRunsDecodedCommand := by
  intro s
  refine ⟨fun r rest i ha hp hd => ?decoded, fun r rest e ha hp hd => ?illegal, fun ha hp => ?empty,
    step_of_not_answers⟩
  case decoded => rw [step_of_answers ha, runHead_of_pending hp, runCommand_ok hd]
  case illegal => rw [step_of_answers ha, runHead_of_pending hp, runCommand_error hd]
  case empty => rw [step_of_answers ha, runHead_of_empty hp]

/-- Settles O7: out of reset the edge accepts and delivers as the two handshakes say; under reset it does neither. -/
theorem clockEdgeMovesRequestsAndResponses : Obligations.ClockEdgeMovesRequestsAndResponses := by
  intro s t hstep
  obtain ⟨hrst, hpend, -, -, -, -, -, -, -, hrec, -⟩ := step_frame hstep
  refine ⟨fun hs hc => ?pending, fun hs => ?received, fun hs => ?reset, fun h => ?discarded⟩
  case pending =>
    rw [hpend, State.nextPending_of_not_resetting (State.resetting_eq_false.mpr ⟨hs, hc⟩)]
    simp [State.queued, State.accepts, State.delivers, State.offered, hs]
  case received =>
    rw [hrec]
    simp only [State.nextReceived, State.delivers, hs, Bool.not_false, Bool.true_and, Bool.and_eq_true]
    split_ifs <;> simp
  case reset => simp [hrec, State.nextReceived, State.delivers, hs]
  case discarded =>
    rw [hrst] at h
    rw [hpend, State.nextPending_of_resetting (by simpa [State.resetting] using h)]

/-- Settles O8: a request that the edge does not accept is the next one on the channel; a response that is held excludes a
new one; req_ready looks at the depth. -/
theorem handshakeSignalsAreHeld : Obligations.HandshakeSignalsAreHeld := by
  intro s t hstep
  obtain ⟨hrst, hpend, hvalid, hready, hcmd, ha, -⟩ := step_frame hstep
  refine ⟨fun hv hno => ?request, fun hv hr hs ht => ?response, fun hfull => ?full⟩
  case request =>
    have hheld : s.nextRequest = some s.offered := by
      obtain hno | hno := hno <;> simp [State.nextRequest, State.holdsRequest, State.accepts, hv, hno]
    simp [hvalid, hcmd, ha, hheld, State.offered]
  case response =>
    have hheld : s.holdsResponse = true :=
      State.holdsResponse_eq_true.mpr ⟨hv, by simp [State.delivers, hr],
        State.resetting_eq_false.mpr ⟨hs, hrst ▸ ht⟩⟩
    rw [step_of_not_answers (by simp [State.answers, hheld])] at hstep
    obtain rfl := Host.Outcome.next.inj hstep
    simp [hheld]
  case full =>
    rw [hpend] at hfull
    simp [hready, State.nextReqReady, hfull]

theorem State.raised_eq_some {s : State} {r : Request} (h : s.raised = some r) :
    s.holdsRequest = false ∧ s.nextBooted = true ∧ s.program = r :: s.nextProgram := by
  have hprog : s.program = r :: s.nextProgram := by simpa [h] using s.raised_append_nextProgram.symm
  unfold State.raised at h
  split_ifs at h with hc
  simp only [Bool.and_eq_true, Bool.not_eq_true'] at hc
  exact ⟨hc.1.1, hc.1.2, hprog⟩

theorem State.nextBooted_eq_true {s : State} :
    s.nextBooted = true ↔ s.resetting = false ∧ (s.booted = true ∨ s.reqReady = true) := by
  simp [State.nextBooted]

/-- Settles O9: either the host raises nothing, and what is on the channel is held, or it raises the next request of its
program, which it does only when booted. -/
theorem hostRaisesItsProgramInOrder : Obligations.HostRaisesItsProgramInOrder := by
  intro s t hstep
  obtain ⟨hrst, -, hvalid, -, hcmd, ha, -, hboot, hprog, -⟩ := step_frame hstep
  cases hr : s.raised with
  | none =>
    refine .inl ⟨by simp [hprog, State.nextProgram, hr], fun hv => ?_⟩
    have hheld : s.holdsRequest = true := by simpa [hvalid, State.nextRequest, hr] using hv
    simpa [State.holdsRequest] using hheld
  | some r =>
    obtain ⟨hheld, hbooted, hhead⟩ := State.raised_eq_some hr
    obtain ⟨hreset, hseen⟩ := State.nextBooted_eq_true.mp hbooted
    obtain ⟨hs, hc⟩ := State.resetting_eq_false.mp hreset
    have hnext : s.nextRequest = some r := by simp [State.nextRequest, hheld, hr]
    exact .inr ⟨r, hprog ▸ hhead, by simp [hvalid, hnext], by simp [hcmd, hnext], by simp [ha, hnext],
      hboot.trans hbooted, hrst.trans hc, hs, hseen⟩

/-- Reset on either side of an edge leaves the FFC empty and silent. -/
theorem step_of_resetting {s t : State} (hreset : s.resetting = true) (hstep : step s = .next t) :
    t.pending = [] ∧ t.rspValid = false ∧ t.booted = false := by
  rw [step_of_not_answers (by simp [State.answers, hreset])] at hstep
  obtain rfl := Host.Outcome.next.inj hstep
  simp [State.nextPending_of_resetting hreset, State.holdsResponse, State.nextBooted, hreset]

/-- Settles O10: a step on either side of reset empties `pending` and offers nothing; req_ready is 0 while reset lasts, and
the edge that ends a cycle in reset neither accepts nor delivers. -/
theorem resetDiscardsAndSilences : Obligations.ResetDiscardsAndSilences := by
  intro s t hstep
  obtain ⟨hrst, -, -, hready, -, -, -, -, -, hrec, -⟩ := step_frame hstep
  constructor
  · intro ht
    have hc : s.choice.reset = true := hrst ▸ ht
    obtain ⟨hpend, hv, hboot⟩ := step_of_resetting (by simp [State.resetting, hc]) hstep
    exact ⟨hpend, by simp [hready, State.nextReqReady, hc], hv, hboot⟩
  · intro hs
    obtain ⟨hpend, hv, -⟩ := step_of_resetting (by simp [State.resetting, hs]) hstep
    have hdel : s.delivers = false := by simp [State.delivers, hs]
    exact ⟨by simp [State.accepts, hs], hdel, hpend, hv, by simp [hrec, State.nextReceived, hdel]⟩

/-- Settles O11: the fields of `State.reset`. -/
theorem resetStateAsSpecified : Obligations.ResetStateAsSpecified :=
  ⟨State.reset_pending, State.reset_rspValid, State.reset_rst, State.reset_reqValid, State.reset_program,
    State.reset_received, State.reset_booted⟩

/-- Settles O12: a step advances, and what it runs on the advanced state answers. -/
theorem stepNeverStops : Obligations.StepNeverStops := exists_step

/-- Settles O13: nothing is pending or offered, and there is room for one request at least. -/
theorem resetMeetsTheMachineInvariant : Obligations.ResetMeetsTheMachineInvariant where
  depth := Nat.zero_le _
  room := fun _ => Nat.succ_pos _
  quiet := by simp
  answered := by simp

/-- Settles O16: both responses are `Exec` of the request. -/
theorem responseDependsOnTheRequestAlone : Obligations.ResponseDependsOnTheRequestAlone := by
  intro s s' t t' r rest rest' hp hp' ht ht'
  rw [runHead_eq_execRequest hp] at ht
  rw [runHead_eq_execRequest hp'] at ht'
  obtain rfl := Host.Outcome.next.inj ht
  obtain rfl := Host.Outcome.next.inj ht'
  exact ⟨rfl, rfl, rfl, rfl⟩

end Sys2Proof.Machine

/-! ## The decoder on whole words and on a platform's bytes (30_encoding.md R85, 20_memory.md R41) -/

namespace Sys2Proof

open Machine

/-- Settles O2: a word decodes only to the instruction that has it in the opcode map, and that word does decode to it. -/
theorem decodingComparesWholeWord : Obligations.DecodingComparesWholeWord :=
  fun _ i => ⟨eq_encode_of_decode_ok, fun h => h ▸ decode_encode i⟩

theorem byteOf_eq_extractLsb' (w : Word) (i : Nat) : byteOf w i = w.extractLsb' (8 * i) 8 := by
  apply BitVec.eq_of_toNat_eq
  simp [byteOf, field, Nat.shiftRight_eq_div_pow, show 8 * i + 7 + 1 - 8 * i = 8 by omega]

/-- The bytes that a platform stores for a word make up the word, in either order. -/
theorem bytesWord_wordBytes (w : Word) :
    bytesWord .little (byteOf w 0) (byteOf w 1) (byteOf w 2) (byteOf w 3) = w ∧
    bytesWord .big (byteOf w 3) (byteOf w 2) (byteOf w 1) (byteOf w 0) = w := by
  simp only [bytesWord, byteOf_eq_extractLsb', Nat.reduceMul]
  simp (disch := rfl) only [BitVec.extractLsb'_append_extractLsb'_eq_extractLsb',
    BitVec.extractLsb'_eq_self, and_self]

/-- Settles O5: the first four bytes make up the word, and decoding leaves the others. -/
theorem platformByteOrderChangesNothing : Obligations.PlatformByteOrderChangesNothing := by
  intro o w rest
  obtain ⟨hlittle, hbig⟩ := bytesWord_wordBytes w
  cases o <;> simp only [wordBytes, decodeBytes, List.cons_append, List.nil_append, hlittle, hbig] <;>
    cases decode w <;> rfl

end Sys2Proof

/-! ## The instructions: frames, operand forms, results (10_state.md R28, 30_encoding.md R69) -/

namespace Sys2Proof.Machine

/-! ### Frames -/

/-- Settles O24: `exec` is an answer, which offers the response of the oldest request, or stops without one. -/
theorem execChangesOnlyTheResponse : Obligations.ExecChangesOnlyTheResponse := by
  refine ⟨fun i s t h => ?frame, fun i s => ⟨fun hp => ?stops, fun hf => ?empty⟩⟩
  case frame =>
    obtain ⟨r, rest, -, rfl⟩ := exec_next h
    rfl
  case stops => rw [exec_eq_answer, answer_of_empty hp]
  case empty =>
    cases hp : s.pending with
    | nil => rfl
    | cons r rest =>
      rw [exec_of_pending i hp] at hf
      cases hf

/-- The data word of a next state of `exec` is the instruction's result on the oldest operand. -/
theorem rspD_of_exec_next {i : Instr} {s t : State} (h : exec i s = .next t) :
    ∃ r rest, s.pending = r :: rest ∧ t.rspD = resultOfInstr i r.a := by
  obtain ⟨r, rest, hp, rfl⟩ := exec_next h
  exact ⟨r, rest, hp, State.respond_rspD _ _⟩

/-! ### The results of the families -/

/-- An instruction that answers `f` answers any `g` of the same values. -/
theorem Answers.congr {i : Instr} {f g : Word → Word} (h : Answers i f) (hfg : ∀ a, f a = g a) : Answers i g :=
  funext hfg ▸ h

theorem resultOfInstr_cvtInstr (fa fb : Fmt) (a : Word) :
    resultOfInstr (cvtInstr fa fb) a = narrowResult (cvt fa fb (narrowOperand fa a)) := by
  cases fa <;> cases fb <;> rfl

theorem resultOfInstr_specqInstr (f : Fmt) (a : Word) :
    resultOfInstr (specqInstr f) a = narrowResult (specq f (narrowOperand f a)) := by
  cases f <;> rfl

theorem resultOfInstr_constInstr {f : Fmt} {sel : Sel} {i : Instr} (h : constInstr f sel = some i) (a : Word) :
    resultOfInstr i a = narrowResult (const f sel) := by
  cases f <;> cases sel <;> cases h <;> rfl

/-- Every CVT completes with `D = zext_32(CVT(FA, FB, A[FA.W-1:0]))` (R170). -/
theorem answers_cvtInstr (fa fb : Fmt) :
    Answers (cvtInstr fa fb) (fun a => narrowResult (cvt fa fb (narrowOperand fa a))) :=
  (answers_resultOfInstr _).congr (resultOfInstr_cvtInstr fa fb)

/-- Every SPECQ completes with its three predicates (R200). -/
theorem answers_specqInstr (f : Fmt) : Answers (specqInstr f) (fun a => narrowResult (specq f (narrowOperand f a))) :=
  (answers_resultOfInstr _).congr (resultOfInstr_specqInstr f)

/-- Every CONST completes with its pattern (R190). -/
theorem answers_constInstr {f : Fmt} {sel : Sel} {i : Instr} (h : constInstr f sel = some i) :
    Answers i (fun _ => narrowResult (const f sel)) :=
  (answers_resultOfInstr _).congr (resultOfInstr_constInstr h)

/-- Settles O34: the instruction's result is `zext_32` of ENC. -/
theorem encAnswersItsPattern : Obligations.EncAnswersItsPattern := answers_encInstr

/-- Settles O50: CVT is ENC of DEC by definition. -/
theorem cvtIsDecodeThenEncode : Obligations.CvtIsDecodeThenEncode := answers_cvtInstr

/-- Settles O56: each row is the pattern that `CONST(F, SEL)` computes to. -/
theorem constantsAsTabulated : Obligations.ConstantsAsTabulated :=
  ⟨answers_constInstr (f := .bf16) (sel := .minnorm) rfl, answers_constInstr (f := .bf16) (sel := .maxfin) rfl,
    answers_constInstr (f := .bf16) (sel := .eps) rfl, answers_constInstr (f := .bf16) (sel := .qnan) rfl,
    answers_constInstr (f := .bf16) (sel := .pinf) rfl, answers_constInstr (f := .bf16) (sel := .ninf) rfl,
    answers_constInstr (f := .fp16) (sel := .minnorm) rfl, answers_constInstr (f := .fp16) (sel := .maxfin) rfl,
    answers_constInstr (f := .fp16) (sel := .eps) rfl, answers_constInstr (f := .fp16) (sel := .qnan) rfl,
    answers_constInstr (f := .fp16) (sel := .pinf) rfl, answers_constInstr (f := .fp16) (sel := .ninf) rfl,
    answers_constInstr (f := .e4m3fn) (sel := .minnorm) rfl, answers_constInstr (f := .e4m3fn) (sel := .maxfin) rfl,
    answers_constInstr (f := .e4m3fn) (sel := .eps) rfl, answers_constInstr (f := .e4m3fn) (sel := .qnan) rfl,
    answers_constInstr (f := .e4m3fnuz) (sel := .minnorm) rfl, answers_constInstr (f := .e4m3fnuz) (sel := .maxfin) rfl,
    answers_constInstr (f := .e4m3fnuz) (sel := .eps) rfl, answers_constInstr (f := .e4m3fnuz) (sel := .qnan) rfl⟩

/-! ### Operands and results -/

/-- Words that agree on the low `W` bits are the same narrow operand. -/
theorem narrowOperand_congr {f : Fmt} {a a' : Word} (h : ∀ j < f.spec.w, a.getLsbD j = a'.getLsbD j) :
    narrowOperand f a = narrowOperand f a' := by
  apply Nat.eq_of_testBit_eq
  intro j
  simp only [narrowOperand, Nat.testBit_mod_two_pow]
  by_cases hj : j < f.spec.w
  · simp only [hj, decide_true, Bool.true_and]
    exact h j hj
  · simp [hj]

theorem qnan_lt_width (f : Fmt) : f.qnan < 2 ^ f.spec.w := by
  cases f <;> decide

/-- Every pattern that ENC gives fits the format. -/
theorem enc_lt_width (f : Fmt) (a : Word) : enc f a < 2 ^ f.spec.w := by
  cases hu : unpack32 a with
  | nan s => exact enc_of_nan hu ▸ qnan_lt_width f
  | inf s =>
    rw [enc_of_inf hu]
    split_ifs
    · exact pat_lt _ _ _ _
    · exact sat_lt_width f s
  | zero s => exact enc_of_zero hu ▸ zero_lt_width f s
  | fin s sig q => exact enc_of_fin hu ▸ encFin_lt_width f s sig q

theorem const_lt_width (f : Fmt) (sel : Sel) : const f sel < 2 ^ f.spec.w := by
  cases f <;> cases sel <;> decide

theorem specq_lt (f : Fmt) (b : Nat) : specq f b < 2 ^ 3 := by
  have hinf := toNat_le_one (isInfinityRepresentable f)
  have hexp := toNat_le_one (isSpecialExponent f (f.expOf b))
  have hnan := toNat_le_one (isNaNPattern f b)
  unfold specq
  omega

/-- Zero extension keeps a bound. -/
theorem toNat_narrowResult_lt {r n : Nat} (h : r < n) : (narrowResult r).toNat < n := by
  rw [narrowResult, zext32, BitVec.toNat_ofNat]
  exact (Nat.mod_le _ _).trans_lt h

/-- Settles O25: the results of DEC, CVT and SPECQ are functions of the narrow operand, and each narrow result is bounded
before it is zero-extended. -/
theorem operandsAndResultsArePacked : Obligations.OperandsAndResultsArePacked := by
  refine ⟨?narrow, ?const, ?cvt, ?enc, ?specq⟩
  case narrow =>
    intro f g s s' t t' r r' rest rest' i hi hp hp' hbits ht ht'
    have hop := narrowOperand_congr hbits
    have hsame : resultOfInstr i r.a = resultOfInstr i r'.a := by
      obtain rfl | rfl | rfl := hi
      · simp only [resultOfInstr_decInstr, hop]
      · simp only [resultOfInstr_cvtInstr, hop]
      · simp only [resultOfInstr_specqInstr, hop]
    rw [exec_of_pending i hp] at ht
    rw [exec_of_pending i hp'] at ht'
    obtain rfl := Host.Outcome.next.inj ht
    obtain rfl := Host.Outcome.next.inj ht'
    simpa using hsame
  case const =>
    intro f c i s s' t t' hi ht ht'
    obtain ⟨r, -, -, hd⟩ := rspD_of_exec_next ht
    obtain ⟨r', -, -, hd'⟩ := rspD_of_exec_next ht'
    rw [hd, hd', resultOfInstr_constInstr hi, resultOfInstr_constInstr hi]
    exact ⟨rfl, toNat_narrowResult_lt (const_lt_width f c)⟩
  case cvt =>
    intro f g s t ht
    obtain ⟨r, -, -, hd⟩ := rspD_of_exec_next ht
    rw [hd, resultOfInstr_cvtInstr]
    exact toNat_narrowResult_lt (enc_lt_width g _)
  case enc =>
    intro f s t ht
    obtain ⟨r, -, -, hd⟩ := rspD_of_exec_next ht
    rw [hd, resultOfInstr_encInstr]
    exact toNat_narrowResult_lt (enc_lt_width f _)
  case specq =>
    intro f s t ht
    obtain ⟨r, -, -, hd⟩ := rspD_of_exec_next ht
    rw [hd, resultOfInstr_specqInstr]
    exact toNat_narrowResult_lt (specq_lt f _)

/-! ### The fields of a narrow operand -/

/-- The fields of a narrow operand are fields of the word. -/
theorem expOf_narrowOperand (f : Fmt) (a : Word) :
    f.expOf (narrowOperand f a) = a.toNat / 2 ^ f.spec.m % 2 ^ f.spec.e := by
  cases f <;> simp only [Fmt.expOf, field, narrowOperand, Fmt.spec] <;> omega

theorem manOf_narrowOperand (f : Fmt) (a : Word) : f.manOf (narrowOperand f a) = a.toNat % 2 ^ f.spec.m := by
  cases f <;> simp only [Fmt.manOf, field, narrowOperand, Fmt.spec] <;> omega

theorem signOf_narrowOperand (f : Fmt) (a : Word) : f.signOf (narrowOperand f a) = a.getLsbD (f.spec.w - 1) := by
  have hbit : field (narrowOperand f a) (f.spec.w - 1) (f.spec.w - 1) = a.toNat / 2 ^ (f.spec.w - 1) % 2 := by
    cases f <;> simp only [field, narrowOperand, Fmt.spec] <;> omega
  rw [BitVec.getLsbD, Nat.testBit_eq_decide_div_mod_eq, Fmt.signOf, hbit]

/-! ### The NaN patterns of each kind (R78), and SPECQ -/

theorem isNaNPattern_of_ieee {f : Fmt} (hk : f.spec.kind = .ieee) (b : Nat) :
    isNaNPattern f b = decide (f.expOf b = ones f.spec.e ∧ f.manOf b ≠ 0) := by
  simp [isNaNPattern, hk]

theorem isNaNPattern_of_fn {f : Fmt} (hk : f.spec.kind = .fn) (b : Nat) :
    isNaNPattern f b = decide (f.expOf b = ones f.spec.e ∧ f.manOf b = ones f.spec.m) := by
  simp [isNaNPattern, hk]

theorem isNaNPattern_of_fnuz {f : Fmt} (hk : f.spec.kind = .fnuz) (b : Nat) :
    isNaNPattern f b = decide (b = 2 ^ (f.spec.w - 1)) := by
  simp [isNaNPattern, hk]

/-- SPECQ of an IEEE kind, by the fields of its operand. -/
theorem narrowResult_specq_of_ieee {f : Fmt} (hk : f.spec.kind = .ieee) (a : Word) :
    narrowResult (specq f (narrowOperand f a)) =
      specqIeeeResult f.spec.e (a.toNat / 2 ^ f.spec.m % 2 ^ f.spec.e) (a.toNat % 2 ^ f.spec.m) := by
  rw [specq, isInfinityRepresentable, isSpecialExponent, isNaNPattern_of_ieee hk, hk, expOf_narrowOperand,
    manOf_narrowOperand]
  unfold specqIeeeResult ones
  split_ifs <;> simp_all [narrowResult, zext32]

/-- SPECQ of the other kinds: only the NaN bit can be 1. -/
theorem narrowResult_specq_of_not_ieee {f : Fmt} (hk : f.spec.kind ≠ .ieee) (a : Word) :
    narrowResult (specq f (narrowOperand f a)) = if isNaNPattern f (narrowOperand f a) then 1 else 0 := by
  cases h : isNaNPattern f (narrowOperand f a) <;>
    simp [specq, isInfinityRepresentable, isSpecialExponent, hk, h, narrowResult, zext32]

/-- The NaN patterns of E4M3FN are 0x7F and 0xFF (R74). -/
theorem isNaNPattern_e4m3fn_iff {b : Nat} (h : b < 2 ^ 8) :
    isNaNPattern .e4m3fn b = true ↔ b = 0x7F ∨ b = 0xFF := by
  rw [isNaNPattern_of_fn rfl, decide_eq_true_eq]
  simp only [Fmt.spec, Fmt.expOf, Fmt.manOf, field, ones]
  omega

/-- The NaN pattern of E4M3FNUZ is 0x80 (R75). -/
theorem isNaNPattern_e4m3fnuz_iff (b : Nat) : isNaNPattern .e4m3fnuz b = true ↔ b = 0x80 := by
  rw [isNaNPattern_of_fnuz rfl, decide_eq_true_eq]
  rfl

/-- Settles O58: the predicates of the kind, on the fields of the operand. -/
theorem specqPredicates : Obligations.SpecqPredicates := by
  refine ⟨?bf16, ?fp16, ?fn, ?fnuz⟩
  case bf16 => exact (answers_specqInstr .bf16).congr (narrowResult_specq_of_ieee rfl)
  case fp16 => exact (answers_specqInstr .fp16).congr (narrowResult_specq_of_ieee rfl)
  case fn =>
    refine (answers_specqInstr .e4m3fn).congr fun a => ?_
    rw [narrowResult_specq_of_not_ieee (by decide)]
    exact if_congr (isNaNPattern_e4m3fn_iff (Nat.mod_lt _ (by decide))) rfl rfl
  case fnuz =>
    refine (answers_specqInstr .e4m3fnuz).congr fun a => ?_
    rw [narrowResult_specq_of_not_ieee (by decide)]
    exact if_congr (isNaNPattern_e4m3fnuz_iff _) rfl rfl

end Sys2Proof.Machine

/-! ## Pack32 and DEC (30_encoding.md R81, 41_decode.md R100 to R104) -/

namespace Sys2Proof.Machine

/-! ### Pack32 -/

/-- The bit length names the binade. -/
theorem bitlen_eq {n p : Nat} (hlow : 2 ^ p ≤ n) (hhigh : n < 2 ^ (p + 1)) : bitlen n = p + 1 := by
  have hn : n ≠ 0 := (Nat.lt_of_lt_of_le (by positivity) hlow).ne'
  rw [bitlen, (Nat.log2_eq_iff hn).mpr ⟨hlow, hhigh⟩]

theorem pack32_of_normal (s : Bool) {sig : Nat} {q : Int} (h : -126 ≤ (bitlen sig - 1 : Nat) + q) :
    pack32 s sig q =
      word32 s ((bitlen sig - 1 : Nat) + q + 127).toNat (sig * 2 ^ (23 - (bitlen sig - 1)) - 2 ^ 23) :=
  if_pos h

theorem pack32_of_subnormal (s : Bool) {sig : Nat} {q : Int} (h : (bitlen sig - 1 : Nat) + q < -126) :
    pack32 s sig q = word32 s 0 (sig * 2 ^ (q + 149).toNat) :=
  if_neg (not_le.mpr h)

/-- Pack32 gives a finite word of the class it is asked for, scaled to 24 significant bits or to the exponent of the
subnormals. -/
theorem unpack32_pack32 (s : Bool) {sig : Nat} {q : Int} (h : Pack32Ok sig q) :
    ∃ j : Nat, unpack32 (pack32 s sig q) = .fin s (sig * 2 ^ j) (q - j) := by
  obtain ⟨hsig, hp, hk, hsub⟩ := h
  have hlow : 2 ^ (bitlen sig - 1) ≤ sig := two_pow_bitlen_le (by omega)
  have hhigh : sig < 2 ^ (bitlen sig - 1 + 1) := by
    rw [Nat.sub_add_cancel (bitlen_pos sig)]
    exact lt_two_pow_bitlen sig
  rcases le_or_gt (-126) ((bitlen sig - 1 : Nat) + q) with hnorm | hnorm
  · refine ⟨23 - (bitlen sig - 1), ?_⟩
    rw [pack32_of_normal s hnorm]
    generalize bitlen sig - 1 = p at *
    have hlow' : 2 ^ 23 ≤ sig * 2 ^ (23 - p) := by
      rw [← pow_mul_pow_sub 2 hp]
      gcongr
    have hhigh' : sig * 2 ^ (23 - p) < 2 ^ 24 := by
      rw [← pow_mul_pow_sub 2 (show p + 1 ≤ 24 by omega), show 24 - (p + 1) = 23 - p by omega]
      gcongr
    rw [unpack32_normal s (by omega) (by omega) (by omega), Nat.add_sub_cancel' hlow']
    congr 1
    omega
  · refine ⟨(q + 149).toNat, ?_⟩
    rw [pack32_of_subnormal s hnorm]
    have hq := hsub hnorm
    have hlt : sig * 2 ^ (q + 149).toNat < 2 ^ 23 := by
      calc sig * 2 ^ (q + 149).toNat < 2 ^ (bitlen sig - 1 + 1) * 2 ^ (q + 149).toNat := by gcongr
        _ = 2 ^ (bitlen sig - 1 + 1 + (q + 149).toNat) := (pow_add _ _ _).symm
        _ ≤ 2 ^ 23 := Nat.pow_le_pow_right two_pos (by omega)
    rw [unpack32_subnormal s (by positivity) hlt]
    congr 1
    omega

/-- A word of a finite class has its sign. -/
theorem sign32_of_unpack32_fin {w : Word} {s : Bool} {sig : Nat} {q : Int} (h : unpack32 w = .fin s sig q) :
    sign32 w = s := by
  unfold unpack32 at h
  split_ifs at h <;> injection h

theorem isNaN32_iff {w : Word} : isNaN32 w = true ↔ ∃ s, unpack32 w = .nan s := by
  unfold isNaN32 unpack32
  split_ifs <;> simp_all

theorem isInf32_iff {w : Word} : isInf32 w = true ↔ ∃ s, unpack32 w = .inf s := by
  unfold isInf32 unpack32
  split_ifs <;> simp_all

/-- Scaling the significand against the exponent keeps the value. -/
theorem mul_two_pow_mul_zpow (sig j : Nat) (q : Int) : ((sig * 2 ^ j : Nat) : ℚ) * 2 ^ (q - j) = sig * 2 ^ q := by
  rw [Nat.cast_mul, Nat.cast_pow, Nat.cast_ofNat, mul_assoc, ← zpow_natCast, ← zpow_add₀ two_ne_zero, add_sub_cancel]

/-- Settles O31: the class that Pack32 gives is a scaling of the one it is asked for. -/
theorem pack32KeepsTheValue : Obligations.Pack32KeepsTheValue := by
  intro s sig q h
  obtain ⟨j, hu⟩ := unpack32_pack32 s h
  refine ⟨?_, sign32_of_unpack32_fin hu⟩
  rw [value32, hu, Canon.value, mul_assoc, mul_two_pow_mul_zpow, mul_assoc]

/-! ### DEC by the class of its pattern (R100) -/

/-- No NaN and no infinity. -/
def IsFinite (f : Fmt) (b : Nat) : Prop := isNaNPattern f b = false ∧ isInfPattern f b = false

theorem isFinite_iff_isSome_patValue {f : Fmt} {b : Nat} : IsFinite f b ↔ (patValue f b).isSome = true := by
  unfold IsFinite patValue
  cases isNaNPattern f b <;> cases isInfPattern f b <;> simp
  split_ifs <;> rfl

theorem isFinite_of_patValue {f : Fmt} {b : Nat} {v : ℚ} (h : patValue f b = some v) : IsFinite f b :=
  isFinite_iff_isSome_patValue.mpr (h ▸ rfl)

/-- A pattern is a NaN, an infinity, or finite. -/
theorem pattern_cases (f : Fmt) (b : Nat) :
    (isNaNPattern f b = true ∧ isInfPattern f b = false) ∨ (isNaNPattern f b = false ∧ isInfPattern f b = true) ∨
    IsFinite f b := by
  unfold IsFinite
  cases hn : isNaNPattern f b <;> cases hi : isInfPattern f b <;> simp
  have hk : f.spec.kind = .ieee ∧ f.expOf b = ones f.spec.e ∧ f.manOf b = 0 := by simpa [isInfPattern] using hi
  simp [isNaNPattern_of_ieee hk.1, hk] at hn

theorem dec_of_isInfPattern {f : Fmt} {b : Nat} (h : isInfPattern f b = true) :
    dec f b = word32 (f.signOf b) 0xFF 0 := by
  obtain ⟨hk, he, hm⟩ : f.spec.kind = .ieee ∧ f.expOf b = ones f.spec.e ∧ f.manOf b = 0 := by
    simpa [isInfPattern] using h
  simp [dec, hk, he, hm]

theorem dec_of_isFinite {f : Fmt} {b : Nat} (h : IsFinite f b) :
    dec f b = if f.expOf b = 0 ∧ f.manOf b = 0 then word32 (f.signOf b) 0 0
      else if f.expOf b = 0 then pack32 (f.signOf b) (f.manOf b) (1 - f.spec.bias - f.spec.m)
      else pack32 (f.signOf b) (2 ^ f.spec.m + f.manOf b) (f.expOf b - f.spec.bias - f.spec.m) := by
  obtain ⟨hn, hi⟩ := h
  cases hk : f.spec.kind with
  | ieee =>
    have he : f.expOf b ≠ ones f.spec.e := by
      intro he
      simp [isNaNPattern_of_ieee hk, isInfPattern, hk, he] at hn hi
      exact hi hn
    simp [dec, hk, he]
  | fn =>
    rw [isNaNPattern_of_fn hk, decide_eq_false_iff_not] at hn
    simp [dec, hk, hn]
  | fnuz =>
    rw [isNaNPattern_of_fnuz hk, decide_eq_false_iff_not] at hn
    simp [dec, hk, hn]

/-- The exponent field of a finite pattern is at most the largest finite one (R76). -/
theorem expOf_le_topExp {f : Fmt} {b : Nat} (h : IsFinite f b) : f.expOf b ≤ f.topExp := by
  have hlt := expOf_lt f b
  obtain ⟨hn, hi⟩ := h
  cases hk : f.spec.kind with
  | ieee =>
    have he : f.expOf b ≠ 2 ^ f.spec.e - 1 := by
      intro he
      simp [isNaNPattern_of_ieee hk, isInfPattern, hk, ones, he] at hn hi
      exact hi hn
    simp only [Fmt.topExp, hk]
    omega
  | fn | fnuz =>
    simp only [Fmt.topExp, hk]
    omega

theorem pack32Ok_subnormal (f : Fmt) {m : Nat} (h0 : m ≠ 0) (hm : m < 2 ^ f.spec.m) :
    Pack32Ok m (1 - f.spec.bias - f.spec.m) := by
  have hlen : bitlen m - 1 < f.spec.m :=
    (Nat.pow_lt_pow_iff_right one_lt_two).mp ((two_pow_bitlen_le h0).trans_lt hm)
  unfold Pack32Ok
  cases f <;> simp only [Fmt.spec] at * <;> omega

theorem bitlen_normal {f : Fmt} {m : Nat} (hm : m < 2 ^ f.spec.m) : bitlen (2 ^ f.spec.m + m) = f.spec.m + 1 :=
  bitlen_eq (Nat.le_add_right _ _) (by rw [pow_succ]; omega)

theorem pack32Ok_normal (f : Fmt) {e m : Nat} (he : e ≤ f.topExp) (hm : m < 2 ^ f.spec.m) :
    Pack32Ok (2 ^ f.spec.m + m) (e - f.spec.bias - f.spec.m) := by
  rw [Pack32Ok, bitlen_normal hm]
  cases f <;> simp only [Fmt.spec, Fmt.topExp] at * <;> omega

/-- A finite pattern decodes to a finite word, of its value and sign. -/
theorem value32_dec_of_isFinite {f : Fmt} {b : Nat} (h : IsFinite f b) :
    value32 (dec f b) = patValue f b ∧ sign32 (dec f b) = f.signOf b := by
  have hm := manOf_lt f b
  rw [dec_of_isFinite h, patValue, h.1, h.2]
  simp only [Bool.or_self, Bool.false_eq_true, if_false]
  by_cases he : f.expOf b = 0
  · by_cases h0 : f.manOf b = 0
    · simp [he, h0, value32, unpack32_zero, Canon.value]
    · obtain ⟨hv, hs⟩ := pack32KeepsTheValue (f.signOf b) _ _ (pack32Ok_subnormal f h0 hm)
      simp only [he, h0, and_false, if_false, if_true, hv, hs, and_true, Option.some.injEq]
      rw [zpow_sub₀ two_ne_zero, zpow_natCast]
      ring
  · obtain ⟨hv, hs⟩ := pack32KeepsTheValue (f.signOf b) _ _ (pack32Ok_normal f (expOf_le_topExp h) hm)
    simp only [he, false_and, if_false, hv, hs, and_true, Option.some.injEq]
    rw [zpow_sub₀ two_ne_zero _ (f.spec.m : Int), zpow_natCast]
    push_cast
    field_simp

/-- A word with a value is neither a NaN nor an infinity. -/
theorem class_of_value32 {w : Word} {v : ℚ} (h : value32 w = some v) : isNaN32 w = false ∧ isInf32 w = false := by
  constructor <;> rw [← Bool.not_eq_true]
  · rw [isNaN32_iff]
    rintro ⟨s, hu⟩
    simp [value32, hu, Canon.value] at h
  · rw [isInf32_iff]
    rintro ⟨s, hu⟩
    simp [value32, hu, Canon.value] at h

/-- Every NaN pattern decodes to a NaN word. -/
theorem unpack32_dec_of_isNaNPattern {f : Fmt} {b : Nat} (h : isNaNPattern f b = true) :
    ∃ s, unpack32 (dec f b) = .nan s := by
  rw [dec_of_isNaNPattern h]
  split_ifs with hf
  · exact ⟨false, by decide⟩
  · have hm : f.manOf b ≠ 0 := by
      cases hk : f.spec.kind with
      | ieee => exact ((decide_eq_true_iff).mp (isNaNPattern_of_ieee hk b ▸ h)).2
      | fn =>
        have := ((decide_eq_true_iff).mp (isNaNPattern_of_fn hk b ▸ h)).2
        cases f <;> simp_all [ones, Fmt.spec]
      | fnuz => exact absurd ((spec_kind_eq_fnuz_iff f).mp hk) hf
    refine ⟨f.signOf b, unpack32_nan _ (by positivity) ?_⟩
    have := manOf_lt f b
    cases f <;> simp only [Fmt.spec] at * <;> omega

/-- Settles O30, by the class of the pattern. -/
theorem decodingIsExact : Obligations.DecodingIsExact := by
  intro f b _
  have hsub := fun (_ : f.expOf b = 0) (h0 : f.manOf b ≠ 0) => pack32Ok_subnormal f h0 (manOf_lt f b)
  obtain ⟨hn, hi⟩ | ⟨hn, hi⟩ | hfin := pattern_cases f b
  · obtain ⟨s, hu⟩ := unpack32_dec_of_isNaNPattern hn
    have hclass : isNaN32 (dec f b) = true ∧ isInf32 (dec f b) = false :=
      ⟨isNaN32_iff.mpr ⟨s, hu⟩, by simp [← Bool.not_eq_true, isInf32_iff, hu]⟩
    have hnone : patValue f b = none := by simp [patValue, hn]
    rw [hclass.1, hclass.2, hnone, hn, hi, value32, hu]
    exact ⟨rfl, rfl, rfl, by simp, by simp, hsub, by simp⟩
  · have hu : unpack32 (dec f b) = .inf (f.signOf b) := dec_of_isInfPattern hi ▸ unpack32_inf _
    have hclass : isNaN32 (dec f b) = false ∧ isInf32 (dec f b) = true :=
      ⟨by simp [← Bool.not_eq_true, isNaN32_iff, hu], isInf32_iff.mpr ⟨_, hu⟩⟩
    have hnone : patValue f b = none := by simp [patValue, hi]
    rw [hclass.1, hclass.2, hnone, hn, hi, value32, hu]
    exact ⟨rfl, rfl, rfl, by simp, fun _ => dec_of_isInfPattern hi ▸ sign32_word32 _ _ _, hsub, by simp⟩
  · obtain ⟨hv, hs⟩ := value32_dec_of_isFinite hfin
    obtain ⟨v, hval⟩ := Option.isSome_iff_exists.mp (isFinite_iff_isSome_patValue.mp hfin)
    obtain ⟨hn, hi⟩ := class_of_value32 (hv.trans hval)
    exact ⟨hv, hn.trans hfin.1.symm, hi.trans hfin.2.symm, fun _ => hs, fun _ => hs, hsub,
      fun _ _ => pack32Ok_normal f (expOf_le_topExp hfin) (manOf_lt f b)⟩

/-- DEC gives a NaN exactly for the NaN patterns. -/
theorem isNaN32_dec {f : Fmt} {b : Nat} (h : b < 2 ^ f.spec.w) : isNaN32 (dec f b) = isNaNPattern f b :=
  (decodingIsExact f b h).2.1

theorem narrowOperand_lt (f : Fmt) (a : Word) : narrowOperand f a < 2 ^ f.spec.w :=
  Nat.mod_lt _ (by positivity)

/-- Bit 0 of SPECQ's result is its NaN bit. -/
theorem getLsbD_zero_narrowResult_specq (f : Fmt) (b : Nat) :
    (narrowResult (specq f b)).getLsbD 0 = isNaNPattern f b := by
  have hlow : specq f b % 2 = (isNaNPattern f b).toNat := by
    have hnan := toNat_le_one (isNaNPattern f b)
    unfold specq
    omega
  rw [narrowResult, zext32, BitVec.getLsbD_ofNat, Nat.testBit_zero, hlow, decide_toNat_eq_one]
  rfl

/-- Settles O59: both are the NaN bit of the operand's pattern. -/
theorem specqAgreesWithDec : Obligations.SpecqAgreesWithDec := by
  intro f s t t' ht ht'
  obtain ⟨r, rest, hp, hd⟩ := rspD_of_exec_next ht
  obtain ⟨r', rest', hp', hd'⟩ := rspD_of_exec_next ht'
  obtain ⟨rfl, -⟩ := List.cons.inj (hp.symm.trans hp')
  rw [hd, hd', resultOfInstr_specqInstr, resultOfInstr_decInstr, isNaN32_dec (narrowOperand_lt f r.a),
    getLsbD_zero_narrowResult_specq]

/-! ### The tables (R101 to R104) -/

theorem pack32_significand (s : Bool) {f : Fmt} {e m : Nat} (h0 : e ≠ 0) (hm : m < 2 ^ f.spec.m) :
    pack32 s (2 ^ f.spec.m + m) (e - f.spec.bias - f.spec.m) =
      word32 s (e + 127 - f.spec.bias) (m * 2 ^ (23 - f.spec.m)) := by
  have hk : (-126 : Int) ≤ (f.spec.m : Nat) + ((e : Int) - f.spec.bias - f.spec.m) := by
    cases f <;> simp only [Fmt.spec] <;> omega
  have hlen : bitlen (2 ^ f.spec.m + m) - 1 = f.spec.m := by rw [bitlen_normal hm, Nat.add_sub_cancel]
  have hexp : ((f.spec.m : Nat) + ((e : Int) - f.spec.bias - f.spec.m) + 127).toNat = e + 127 - f.spec.bias := by omega
  have hfrac : (2 ^ f.spec.m + m) * 2 ^ (23 - f.spec.m) - 2 ^ 23 = m * 2 ^ (23 - f.spec.m) := by
    rw [Nat.add_mul, pow_mul_pow_sub 2 (by cases f <;> decide), Nat.add_sub_cancel_left]
  rw [pack32_of_normal s (by rwa [hlen]), hlen, hexp, hfrac]

/-- A normal pattern decodes to its fields, the exponent in the other bias, the mantissa left-aligned. -/
theorem dec_of_normal {f : Fmt} {b : Nat} (h : IsFinite f b) (he : f.expOf b ≠ 0) :
    dec f b = word32 (f.signOf b) (f.expOf b + 127 - f.spec.bias) (f.manOf b * 2 ^ (23 - f.spec.m)) := by
  rw [dec_of_isFinite h, if_neg (fun h => he h.1), if_neg he, pack32_significand _ he (manOf_lt f b)]

theorem dec_of_zero_fields {f : Fmt} {b : Nat} (h : IsFinite f b) (he : f.expOf b = 0) (hm : f.manOf b = 0) :
    dec f b = word32 (f.signOf b) 0 0 := by
  rw [dec_of_isFinite h, if_pos ⟨he, hm⟩]

theorem dec_of_subnormal {f : Fmt} {b : Nat} (h : IsFinite f b) (he : f.expOf b = 0) (hm : f.manOf b ≠ 0) :
    dec f b = pack32 (f.signOf b) (f.manOf b) (1 - f.spec.bias - f.spec.m) := by
  rw [dec_of_isFinite h, if_neg (fun h => hm h.2), if_pos he]

/-- An IEEE kind's pattern is finite unless the exponent field is all ones (R72, R73). -/
theorem isFinite_iff_of_ieee {f : Fmt} (hk : f.spec.kind = .ieee) {b : Nat} :
    IsFinite f b ↔ f.expOf b ≠ ones f.spec.e := by
  rw [IsFinite, isNaNPattern_of_ieee hk, isInfPattern, decide_eq_false_iff_not, decide_eq_false_iff_not]
  simp only [hk, true_and]
  tauto

/-- A pattern of a kind without infinities is finite unless it is a NaN. -/
theorem isFinite_iff_of_not_ieee {f : Fmt} (hk : f.spec.kind ≠ .ieee) {b : Nat} :
    IsFinite f b ↔ isNaNPattern f b = false := by
  simp [IsFinite, isInfPattern, hk]

/-- An IEEE kind's all-ones exponent decodes to binary32's, the mantissa left-aligned, infinities included. -/
theorem dec_of_ones {f : Fmt} (hk : f.spec.kind = .ieee) {b : Nat} (he : f.expOf b = ones f.spec.e) :
    dec f b = word32 (f.signOf b) 0xFF (f.manOf b * 2 ^ (23 - f.spec.m)) := by
  by_cases hm : f.manOf b = 0 <;> simp [dec, hk, he, hm]

theorem word32_zero (s : Bool) : word32 s 0 0 = if s then 0x80000000 else 0 := by
  cases s <;> decide

theorem word32_inf (s : Bool) : word32 s 0xFF 0 = if s then 0xFF800000 else 0x7F800000 := by
  cases s <;> decide

/-- BF16 is the upper half of binary32: DEC puts its fields in place, whatever the class (R101). -/
theorem dec_bf16 (b : Nat) :
    dec .bf16 b = word32 (Fmt.signOf .bf16 b) (Fmt.expOf .bf16 b) (Fmt.manOf .bf16 b * 2 ^ 16) := by
  by_cases he : Fmt.expOf .bf16 b = ones 8
  · rw [dec_of_ones (f := .bf16) rfl he, he]
    rfl
  · have hfin : IsFinite .bf16 b := (isFinite_iff_of_ieee rfl).mpr he
    by_cases h0 : Fmt.expOf .bf16 b = 0
    · by_cases hm : Fmt.manOf .bf16 b = 0
      · rw [dec_of_zero_fields hfin h0 hm, h0, hm, Nat.zero_mul]
      · have hlen : bitlen (Fmt.manOf .bf16 b) - 1 < 7 :=
          (Nat.pow_lt_pow_iff_right one_lt_two).mp ((two_pow_bitlen_le hm).trans_lt (manOf_lt .bf16 b))
        rw [dec_of_subnormal hfin h0 hm, h0, pack32_of_subnormal]
        · rfl
        · simp only [Fmt.spec]
          omega
    · rw [dec_of_normal hfin h0]
      simp only [Fmt.spec, Nat.add_sub_cancel]

/-- Settles O26: the three fields of the operand, put in place, are the operand shifted. -/
theorem decBf16IsTheUpperHalf : Obligations.DecBf16IsTheUpperHalf := by
  refine (answers_decInstr .bf16).congr fun a => ?_
  rw [dec_bf16, signOf_narrowOperand, expOf_narrowOperand, manOf_narrowOperand]
  have hbit : (a.getLsbD 15).toNat = a.toNat / 2 ^ 15 % 2 := by
    rw [BitVec.getLsbD, Nat.toNat_testBit]
  apply BitVec.eq_of_toNat_eq
  simp only [Fmt.spec, Nat.add_one_sub_one, toNat_word32, hbit, BitVec.toNat_shiftLeft, Nat.shiftLeft_eq]
  omega

/-- Settles O27: the rows of the table are the classes of the pattern. -/
theorem decFp16AsTabulated : Obligations.DecFp16AsTabulated := by
  refine (answers_decInstr .fp16).congr fun a => ?_
  have hs : Fmt.signOf .fp16 (narrowOperand .fp16 a) = a.getLsbD 15 := signOf_narrowOperand .fp16 a
  have he : Fmt.expOf .fp16 (narrowOperand .fp16 a) = a.toNat / 2 ^ 10 % 2 ^ 5 := expOf_narrowOperand .fp16 a
  have hm : Fmt.manOf .fp16 (narrowOperand .fp16 a) = a.toNat % 2 ^ 10 := manOf_narrowOperand .fp16 a
  unfold decFp16Table
  simp only [← hs, ← he, ← hm, ← word32_zero, ← word32_inf]
  split_ifs with h31 h0 h0' h0''
  · rw [dec_of_ones (f := .fp16) rfl h31, h0]
    rfl
  · exact dec_of_ones (f := .fp16) rfl h31
  · exact dec_of_zero_fields ((isFinite_iff_of_ieee rfl).mpr h31) h0' h0''
  · exact dec_of_subnormal ((isFinite_iff_of_ieee rfl).mpr h31) h0' h0''
  · exact dec_of_normal ((isFinite_iff_of_ieee rfl).mpr h31) h0'

/-- Settles O28: the rows of the table are the classes of the pattern; an all-ones exponent without a NaN is a normal one. -/
theorem decE4m3fnAsTabulated : Obligations.DecE4m3fnAsTabulated := by
  refine (answers_decInstr .e4m3fn).congr fun a => ?_
  have hs : Fmt.signOf .e4m3fn (narrowOperand .e4m3fn a) = a.getLsbD 7 := signOf_narrowOperand .e4m3fn a
  have he : Fmt.expOf .e4m3fn (narrowOperand .e4m3fn a) = a.toNat / 2 ^ 3 % 2 ^ 4 := expOf_narrowOperand .e4m3fn a
  have hm : Fmt.manOf .e4m3fn (narrowOperand .e4m3fn a) = a.toNat % 2 ^ 3 := manOf_narrowOperand .e4m3fn a
  unfold decE4m3fnTable
  simp only [← hs, ← he, ← hm, ← word32_zero]
  generalize narrowOperand .e4m3fn a = b
  have hnan : isNaNPattern .e4m3fn b = decide (Fmt.expOf .e4m3fn b = 15 ∧ Fmt.manOf .e4m3fn b = 7) :=
    isNaNPattern_of_fn rfl b
  have hfin : ¬ (Fmt.expOf .e4m3fn b = 15 ∧ Fmt.manOf .e4m3fn b = 7) → IsFinite .e4m3fn b := fun h =>
    (isFinite_iff_of_not_ieee (by decide)).mpr (by rw [hnan, decide_eq_false h])
  split_ifs with hnan' hsign h15 h0 hm0
  · rw [dec_of_isNaNPattern (by rw [hnan, decide_eq_true hnan']), hsign, hnan'.2]
    decide
  · rw [dec_of_isNaNPattern (by rw [hnan, decide_eq_true hnan']), Bool.eq_false_of_not_eq_true hsign, hnan'.2]
    decide
  · rw [dec_of_isFinite (hfin hnan'), if_neg (by omega), if_neg (by omega), h15]
    rfl
  · exact dec_of_zero_fields (hfin hnan') h0 hm0
  · exact dec_of_subnormal (hfin hnan') h0 hm0
  · exact dec_of_normal (hfin hnan') h0

/-- Settles O29: zero fields are the one NaN or the one zero, by the sign; the other rows are the classes of the pattern. -/
theorem decE4m3fnuzAsTabulated : Obligations.DecE4m3fnuzAsTabulated := by
  refine (answers_decInstr .e4m3fnuz).congr fun a => ?_
  have hs : Fmt.signOf .e4m3fnuz (narrowOperand .e4m3fnuz a) = a.getLsbD 7 := signOf_narrowOperand .e4m3fnuz a
  have he : Fmt.expOf .e4m3fnuz (narrowOperand .e4m3fnuz a) = a.toNat / 2 ^ 3 % 2 ^ 4 :=
    expOf_narrowOperand .e4m3fnuz a
  have hm : Fmt.manOf .e4m3fnuz (narrowOperand .e4m3fnuz a) = a.toNat % 2 ^ 3 := manOf_narrowOperand .e4m3fnuz a
  unfold decE4m3fnuzTable
  simp only [← hs, ← he, ← hm]
  have hpat := pat_fields .e4m3fnuz (narrowOperand_lt .e4m3fnuz a)
  generalize narrowOperand .e4m3fnuz a = b at *
  have hfin : b ≠ 0x80 → IsFinite .e4m3fnuz b := fun h =>
    (isFinite_iff_of_not_ieee (by decide)).mpr (Bool.eq_false_of_not_eq_true (mt (isNaNPattern_e4m3fnuz_iff b).mp h))
  split_ifs with h0 hsign he0
  · rw [h0.1, h0.2, hsign] at hpat
    rw [← hpat]
    decide
  · rw [h0.1, h0.2, Bool.eq_false_of_not_eq_true hsign] at hpat
    rw [← hpat]
    decide
  · have hm0 : Fmt.manOf .e4m3fnuz b ≠ 0 := fun h => h0 ⟨he0, h⟩
    exact dec_of_subnormal (hfin fun hb => hm0 (by rw [hb]; decide)) he0 hm0
  · exact dec_of_normal (hfin fun hb => he0 (by rw [hb]; decide)) he0

end Sys2Proof.Machine

/-! ## The magnitudes of a format, in order (30_encoding.md R71 to R79) -/

namespace Sys2Proof.Machine

/-! ### The value of a magnitude -/

/-- The value that the bits below the sign spell: the significand `n` of the magnitude `k × 2^M + n`, in the binade `k`
above the subnormals. The exponent field is `k + 1` for a normal, and the subnormals share the lowest binade. -/
def mag (f : Fmt) (c : Nat) : ℚ :=
  (c - (c / 2 ^ f.spec.m - 1) * 2 ^ f.spec.m : Nat) * 2 ^ ((c / 2 ^ f.spec.m - 1 : Nat) + (f.emin - f.spec.m))

/-- A significand `n` stands in the binade `k`: it is normal there, or the binade is the lowest. -/
def InBinade (f : Fmt) (k n : Nat) : Prop := 2 ^ f.spec.m ≤ n ∨ k = 0

theorem mag_of_lt {f : Fmt} {k n : Nat} (hk : InBinade f k n) (hn : n < 2 ^ (f.spec.m + 1)) :
    mag f (k * 2 ^ f.spec.m + n) = n * 2 ^ (k + (f.emin - f.spec.m)) := by
  have hdiv : (k * 2 ^ f.spec.m + n) / 2 ^ f.spec.m - 1 = k := by
    have hpos : 0 < 2 ^ f.spec.m := by positivity
    have hn' : n < (1 + 1) * 2 ^ f.spec.m := by rwa [pow_succ, Nat.mul_comm] at hn
    rw [Nat.mul_comm, Nat.mul_add_div hpos]
    obtain hnorm | rfl := hk
    · rw [Nat.div_eq_of_lt_le (by rwa [Nat.one_mul]) hn', Nat.add_sub_cancel]
    · have := (Nat.div_lt_iff_lt_mul hpos).mpr hn'
      omega
  rw [mag, hdiv, Nat.add_sub_cancel_left]

/-- The first significand past a binade is the first one of the next. -/
theorem mag_mul_add {f : Fmt} {k n : Nat} (hk : InBinade f k n) (hn : n ≤ 2 ^ (f.spec.m + 1)) :
    mag f (k * 2 ^ f.spec.m + n) = n * 2 ^ (k + (f.emin - f.spec.m)) := by
  obtain hlt | rfl := hn.lt_or_eq
  · exact mag_of_lt hk hlt
  · have hcarry : k * 2 ^ f.spec.m + 2 ^ (f.spec.m + 1) = (k + 1) * 2 ^ f.spec.m + 2 ^ f.spec.m := by ring
    rw [hcarry, mag_of_lt (.inl le_rfl) (Nat.pow_lt_pow_right one_lt_two (Nat.lt_succ_self _))]
    push_cast
    rw [add_assoc, zpow_add₀ two_ne_zero (k : Int), zpow_add₀ two_ne_zero (k : Int), zpow_add₀ two_ne_zero (1 : Int)]
    ring

/-- Every magnitude is a significand in a binade. -/
theorem exists_binade (f : Fmt) (c : Nat) :
    ∃ k n, c = k * 2 ^ f.spec.m + n ∧ n < 2 ^ (f.spec.m + 1) ∧ InBinade f k n := by
  have hdm := Nat.div_add_mod' c (2 ^ f.spec.m)
  have hlt : c % 2 ^ f.spec.m < 2 ^ f.spec.m := Nat.mod_lt _ (by positivity)
  rw [pow_succ]
  cases he : c / 2 ^ f.spec.m with
  | zero => exact ⟨0, c, by omega, by rw [he] at hdm; omega, .inr rfl⟩
  | succ k =>
    rw [he, Nat.succ_mul] at hdm
    exact ⟨k, 2 ^ f.spec.m + c % 2 ^ f.spec.m, by omega, by omega, .inl (Nat.le_add_right _ _)⟩

/-- The magnitudes are in the order of their bits: the next one has the next significand. -/
theorem mag_strictMono (f : Fmt) : StrictMono (mag f) := by
  refine strictMono_nat_of_lt_succ fun c => ?_
  obtain ⟨k, n, rfl, hn, hk⟩ := exists_binade f c
  have hk' : InBinade f k (n + 1) := hk.imp_left fun h => h.trans n.le_succ
  rw [mag_of_lt hk hn, Nat.add_assoc, mag_mul_add hk' hn]
  gcongr
  exact n.lt_succ_self

@[simp] theorem mag_zero (f : Fmt) : mag f 0 = 0 := by simp [mag]

theorem mag_nonneg (f : Fmt) (c : Nat) : 0 ≤ mag f c := by
  unfold mag
  positivity

theorem mag_lt_mag {f : Fmt} {c c' : Nat} : mag f c < mag f c' ↔ c < c' := (mag_strictMono f).lt_iff_lt

theorem mag_le_mag {f : Fmt} {c c' : Nat} : mag f c ≤ mag f c' ↔ c ≤ c' := (mag_strictMono f).le_iff_le

theorem mag_inj {f : Fmt} {c c' : Nat} : mag f c = mag f c' ↔ c = c' := (mag_strictMono f).injective.eq_iff

/-- Seen from the binade `k`, a magnitude is a multiple of the unit in the last place, or lies below the binade. -/
theorem mag_multiple_or_below (f : Fmt) (k c : Nat) :
    (∃ z : Nat, mag f c = z * 2 ^ (k + (f.emin - f.spec.m))) ∨
    (k ≠ 0 ∧ mag f c < (2 ^ f.spec.m : Nat) * 2 ^ (k + (f.emin - f.spec.m))) := by
  obtain ⟨j, n, rfl, hn, hj⟩ := exists_binade f c
  rw [mag_of_lt hj hn]
  rcases le_or_gt k j with hkj | hjk
  · refine .inl ⟨n * 2 ^ (j - k), ?_⟩
    rw [show (j : Int) + (f.emin - f.spec.m) = ((j - k : Nat) : Int) + (k + (f.emin - f.spec.m)) by omega,
      zpow_add₀ two_ne_zero, zpow_natCast]
    push_cast
    ring
  · refine .inr ⟨by omega, ?_⟩
    calc (n : ℚ) * 2 ^ (j + (f.emin - f.spec.m))
        < (2 ^ (f.spec.m + 1) : Nat) * 2 ^ (j + (f.emin - f.spec.m)) := by gcongr
      _ = (2 ^ f.spec.m : Nat) * 2 ^ (1 + j + (f.emin - f.spec.m)) := by
          rw [add_assoc 1, zpow_add₀ two_ne_zero 1]
          push_cast
          ring
      _ ≤ (2 ^ f.spec.m : Nat) * 2 ^ (k + (f.emin - f.spec.m)) := by
          gcongr
          · exact one_le_two
          · omega

theorem mag_maxPat (f : Fmt) : mag f f.maxPat = maxValue f := by
  cases f <;> norm_num [mag, maxValue, Fmt.maxPat, Fmt.maxSig, Fmt.maxExp, Fmt.emin, Fmt.spec]

theorem mag_le_maxValue {f : Fmt} {c : Nat} : mag f c ≤ maxValue f ↔ c ≤ f.maxPat := by
  rw [← mag_maxPat, mag_le_mag]

/-! ### The finite patterns -/

/-- The pattern of a sign and a magnitude; FNUZ has no negative zero (R79). -/
def finPat (f : Fmt) (s : Bool) (c : Nat) : Nat := if c = 0 then f.zero s else s.toNat * 2 ^ (f.spec.w - 1) + c

@[simp] theorem finPat_zero (f : Fmt) (s : Bool) : finPat f s 0 = f.zero s := rfl

theorem finPat_of_ne_zero {f : Fmt} {c : Nat} (s : Bool) (h : c ≠ 0) :
    finPat f s c = s.toNat * 2 ^ (f.spec.w - 1) + c := if_neg h

theorem finPat_of_not_fnuz {f : Fmt} (hk : f.spec.kind ≠ .fnuz) (s : Bool) (c : Nat) :
    finPat f s c = s.toNat * 2 ^ (f.spec.w - 1) + c := by
  rcases eq_or_ne c 0 with rfl | h0
  · rw [finPat_zero, Fmt.zero, if_neg hk, Nat.add_zero]
  · exact finPat_of_ne_zero s h0

theorem finPat_maxPat (f : Fmt) (s : Bool) : finPat f s f.maxPat = f.sat s :=
  finPat_of_ne_zero s (by cases f <;> decide)

theorem maxPat_lt (f : Fmt) : f.maxPat < 2 ^ (f.spec.w - 1) := by cases f <;> decide

/-- A sign and a magnitude below the sign bit are the pattern of their fields. -/
theorem pat_of_magnitude (f : Fmt) (s : Bool) {c : Nat} (h : c < 2 ^ (f.spec.w - 1)) :
    f.pat s (c / 2 ^ f.spec.m) (c % 2 ^ f.spec.m) = s.toNat * 2 ^ (f.spec.w - 1) + c := by
  cases f <;> simp only [Fmt.pat, Fmt.spec] at * <;> omega

theorem fields_finPat {f : Fmt} (s : Bool) {c : Nat} (h : c < 2 ^ (f.spec.w - 1)) :
    f.expOf (finPat f s c) = c / 2 ^ f.spec.m ∧ f.manOf (finPat f s c) = c % 2 ^ f.spec.m := by
  rcases eq_or_ne c 0 with rfl | h0
  · rw [finPat_zero]
    cases f <;> cases s <;> decide
  · rw [finPat_of_ne_zero s h0, ← pat_of_magnitude f s h, expOf_pat, manOf_pat, Nat.mod_mod]
    refine ⟨Nat.mod_eq_of_lt (Nat.div_lt_of_lt_mul ?_), rfl⟩
    rwa [← pow_add, show f.spec.m + f.spec.e = f.spec.w - 1 by rw [spec_width]; omega]

theorem signOf_finPat {f : Fmt} (s : Bool) {c : Nat} (h : c < 2 ^ (f.spec.w - 1)) (h0 : c ≠ 0 ∨ f.spec.kind ≠ .fnuz) :
    f.signOf (finPat f s c) = s := by
  rcases eq_or_ne c 0 with rfl | hc
  · rw [finPat_zero]
    cases f with
    | e4m3fnuz => simp [Fmt.spec] at h0
    | _ => cases s <;> decide
  · rw [finPat_of_ne_zero s hc, ← pat_of_magnitude f s h, signOf_pat]

/-- Up to `MAXFPAT(F)` a magnitude makes a finite pattern. -/
theorem isFinite_finPat {f : Fmt} (s : Bool) {c : Nat} (h : c ≤ f.maxPat) : IsFinite f (finPat f s c) := by
  obtain ⟨he, hm⟩ := fields_finPat s (h.trans_lt (maxPat_lt f))
  cases f with
  | bf16 | fp16 =>
    rw [isFinite_iff_of_ieee rfl, he]
    simp only [Fmt.maxPat, Fmt.spec, ones] at *
    omega
  | e4m3fn =>
    rw [isFinite_iff_of_not_ieee (by decide), isNaNPattern_of_fn rfl, he, hm, decide_eq_false_iff_not]
    simp only [Fmt.maxPat, Fmt.spec, ones] at *
    omega
  | e4m3fnuz =>
    rw [isFinite_iff_of_not_ieee (by decide), isNaNPattern_of_fnuz rfl, decide_eq_false_iff_not]
    have hs := toNat_le_one s
    rcases eq_or_ne c 0 with rfl | hc
    · cases s <;> decide
    · rw [finPat_of_ne_zero s hc]
      simp only [Fmt.maxPat, Fmt.spec] at *
      omega

/-- The source's formula gives a finite pattern its sign and the value of its magnitude. -/
theorem patValue_finPat {f : Fmt} (s : Bool) {c : Nat} (h : c ≤ f.maxPat) :
    patValue f (finPat f s c) = some (signum s * mag f c) := by
  have hlt := h.trans_lt (maxPat_lt f)
  obtain ⟨hn, hi⟩ := isFinite_finPat s h
  obtain ⟨he, hm⟩ := fields_finPat s hlt
  rw [patValue, hn, hi, he, hm]
  rcases eq_or_ne c 0 with rfl | hc
  · simp
  · rw [signOf_finPat s hlt (.inl hc)]
    simp only [Bool.or_self, Bool.false_eq_true, if_false]
    have hdm := Nat.div_add_mod' c (2 ^ f.spec.m)
    cases hdiv : c / 2 ^ f.spec.m with
    | zero =>
      rw [if_pos rfl, mag, hdiv, Nat.mod_eq_of_lt ((Nat.div_eq_zero_iff_lt (by positivity)).mp hdiv), Fmt.emin]
      simp only [zpow_sub₀ (two_ne_zero' ℚ) _ (f.spec.m : Int), zpow_natCast, Nat.zero_sub, Nat.zero_mul, Nat.sub_zero,
        Nat.cast_zero, zero_add]
      congr 1
      ring
    | succ k =>
      rw [hdiv, Nat.succ_mul] at hdm
      rw [if_neg (Nat.succ_ne_zero k), mag, hdiv, Nat.add_sub_cancel, Fmt.emin,
        show c - k * 2 ^ f.spec.m = 2 ^ f.spec.m + c % 2 ^ f.spec.m by omega,
        show (k : Int) + (1 - f.spec.bias - f.spec.m) = (k + 1 : Nat) - f.spec.bias - f.spec.m by push_cast; ring,
        zpow_sub₀ two_ne_zero _ (f.spec.m : Int), zpow_natCast]
      push_cast
      field_simp

/-- The fields of a pattern below the sign are fields of its magnitude. -/
theorem fields_of_magnitude (f : Fmt) (b : Nat) :
    f.expOf b = b % 2 ^ (f.spec.w - 1) / 2 ^ f.spec.m ∧ f.manOf b = b % 2 ^ (f.spec.w - 1) % 2 ^ f.spec.m := by
  cases f <;> simp only [Fmt.expOf, Fmt.manOf, field, Fmt.spec] <;> omega

/-- Every pattern is its sign bit and its magnitude. -/
theorem eq_sign_add_magnitude {f : Fmt} {b : Nat} (h : b < 2 ^ f.spec.w) :
    b = (f.signOf b).toNat * 2 ^ (f.spec.w - 1) + b % 2 ^ (f.spec.w - 1) := by
  obtain ⟨he, hm⟩ := fields_of_magnitude f b
  rw [← pat_of_magnitude f _ (Nat.mod_lt b (by positivity)), ← he, ← hm, pat_fields f h]

theorem magnitude_le_maxPat {f : Fmt} {b : Nat} (hfin : IsFinite f b) : b % 2 ^ (f.spec.w - 1) ≤ f.maxPat := by
  obtain ⟨he, hm⟩ := fields_of_magnitude f b
  have hlt : b % 2 ^ (f.spec.w - 1) < 2 ^ (f.spec.w - 1) := Nat.mod_lt _ (by positivity)
  cases f with
  | bf16 | fp16 =>
    rw [isFinite_iff_of_ieee rfl, he] at hfin
    simp only [Fmt.maxPat, Fmt.spec, ones] at *
    omega
  | e4m3fn =>
    rw [isFinite_iff_of_not_ieee (by decide), isNaNPattern_of_fn rfl, he, hm, decide_eq_false_iff_not] at hfin
    simp only [Fmt.maxPat, Fmt.spec, ones] at *
    omega
  | e4m3fnuz => exact Nat.le_of_lt_succ hlt

/-- Every finite pattern is that of its sign and a magnitude up to `MAXFPAT(F)`. -/
theorem eq_finPat_of_isFinite {f : Fmt} {b : Nat} (h : b < 2 ^ f.spec.w) (hfin : IsFinite f b) :
    b = finPat f (f.signOf b) (b % 2 ^ (f.spec.w - 1)) := by
  have hb := eq_sign_add_magnitude h
  rcases eq_or_ne (b % 2 ^ (f.spec.w - 1)) 0 with h0 | h0
  · rw [h0, finPat_zero, Fmt.zero]
    split_ifs with hk
    · rw [isFinite_iff_of_not_ieee (by simp [hk]), isNaNPattern_of_fnuz hk, decide_eq_false_iff_not] at hfin
      rw [h0, Nat.add_zero] at hb
      cases hs : f.signOf b with
      | false => rwa [hs, Bool.toNat_false, Nat.zero_mul] at hb
      | true => rw [hs, Bool.toNat_true, Nat.one_mul] at hb; exact absurd hb hfin
    · rwa [h0] at hb
  · rwa [finPat_of_ne_zero _ h0]

/-- The value of a finite pattern, by its sign and magnitude. -/
theorem patValue_of_isFinite {f : Fmt} {b : Nat} (h : b < 2 ^ f.spec.w) (hfin : IsFinite f b) :
    patValue f b = some (signum (f.signOf b) * mag f (b % 2 ^ (f.spec.w - 1))) := by
  conv_lhs => rw [eq_finPat_of_isFinite h hfin]
  exact patValue_finPat _ (magnitude_le_maxPat hfin)

/-- The values of a format are its signed magnitudes. -/
theorem exists_finPat_of_patValue {f : Fmt} {b : Nat} {v : ℚ} (h : b < 2 ^ f.spec.w) (hv : patValue f b = some v) :
    ∃ s c, b = finPat f s c ∧ c ≤ f.maxPat ∧ v = signum s * mag f c := by
  have hfin := isFinite_of_patValue hv
  rw [patValue_of_isFinite h hfin] at hv
  exact ⟨_, _, eq_finPat_of_isFinite h hfin, magnitude_le_maxPat hfin, (Option.some.inj hv).symm⟩

theorem abs_signum_mul (s : Bool) {x : ℚ} (h : 0 ≤ x) : |signum s * x| = x := by
  cases s <;> simp [signum, h]

theorem signum_mul_neg_iff (s : Bool) {x : ℚ} (hx : 0 < x) : signum s * x < 0 ↔ s = true := by
  cases s <;> simp [signum, hx, hx.le]

end Sys2Proof.Machine

/-! ## ENC rounds to the nearest magnitude (42_encode.md R130 to R139) -/

namespace Sys2Proof.Machine

/-! ### Rounding to a magnitude -/

/-- `c` is a magnitude nearest to `x`, the even one where another is as near. -/
structure RoundsTo (f : Fmt) (x : ℚ) (c : Nat) : Prop where
  nearest : ∀ c', |mag f c - x| ≤ |mag f c' - x|
  even : ∀ c', c' ≠ c → |mag f c - x| = |mag f c' - x| → c % 2 = 0

section

variable {f : Fmt} {x y : ℚ} {c d : Nat}

/-- Rounding goes past no magnitude upwards. -/
theorem RoundsTo.le_of_mag_le (h : RoundsTo f x c) (hd : mag f d ≤ x) : d ≤ c := by
  by_contra hlt
  have hmag : mag f c < mag f d := mag_lt_mag.mpr (not_le.mp hlt)
  have hnear := h.nearest d
  rw [abs_of_nonpos (by linarith), abs_of_nonpos (by linarith)] at hnear
  linarith

/-- Rounding goes past no magnitude downwards. -/
theorem RoundsTo.le_of_le_mag (h : RoundsTo f x c) (hd : x ≤ mag f d) : c ≤ d := by
  by_contra hlt
  have hmag : mag f d < mag f c := mag_lt_mag.mpr (not_le.mp hlt)
  have hnear := h.nearest d
  rw [abs_of_nonneg (by linarith), abs_of_nonneg (by linarith)] at hnear
  linarith

/-- A magnitude rounds to itself. -/
theorem RoundsTo.eq_of_mag (h : RoundsTo f (mag f d) c) : c = d :=
  le_antisymm (h.le_of_le_mag le_rfl) (h.le_of_mag_le le_rfl)

theorem RoundsTo.zero (f : Fmt) : RoundsTo f 0 0 where
  nearest c' := by simp
  even c' _ _ := rfl

/-- Rounding keeps the order. Out of order, both inputs would be the midpoint of the two magnitudes, which would both be
even, and then not both nearest. -/
theorem RoundsTo.mono (hx : RoundsTo f x c) (hy : RoundsTo f y d) (hxy : x ≤ y) : c ≤ d := by
  by_contra hlt
  have hdx : mag f d < x := not_le.mp fun h => hlt (hx.le_of_le_mag h)
  have hyc : y < mag f c := not_le.mp fun h => hlt (hy.le_of_mag_le h)
  have hnearx : |mag f c - x| = mag f c - x ∧ |mag f d - x| = x - mag f d :=
    ⟨abs_of_nonneg (by linarith), by rw [abs_of_nonpos (by linarith)]; ring⟩
  have hneary : |mag f c - y| = mag f c - y ∧ |mag f d - y| = y - mag f d :=
    ⟨abs_of_nonneg (by linarith), by rw [abs_of_nonpos (by linarith)]; ring⟩
  have hlx := hx.nearest d
  have hly := hy.nearest c
  rw [hnearx.1, hnearx.2] at hlx
  rw [hneary.1, hneary.2] at hly
  have hevenc : c % 2 = 0 := hx.even d (by omega) (by rw [hnearx.1, hnearx.2]; linarith)
  have hevend : d % 2 = 0 := hy.even c (by omega) (by rw [hneary.1, hneary.2]; linarith)
  rcases le_total (mag f (d + 1)) y with hle | hge
  · have := hy.le_of_mag_le hle
    omega
  · have := hx.le_of_le_mag (hxy.trans hge)
    omega

/-- An odd magnitude is rounded away from at the midpoint above it, the midpoint included. -/
theorem RoundsTo.lt_iff_of_odd (h : RoundsTo f x c) (hd : d % 2 = 1) :
    d < c ↔ (mag f d + mag f (d + 1)) / 2 ≤ x := by
  have hstep : mag f d < mag f (d + 1) := mag_lt_mag.mpr d.lt_succ_self
  constructor
  · intro hlt
    by_contra hmid
    have hdx : mag f d < x := not_le.mp fun hx => absurd (h.le_of_le_mag hx) (by omega)
    have hc : mag f (d + 1) ≤ mag f c := mag_le_mag.mpr hlt
    have hnear := h.nearest d
    rw [abs_of_nonneg (by linarith), abs_of_nonpos (by linarith)] at hnear
    linarith
  · intro hmid
    by_contra hle
    have hc : mag f c ≤ mag f d := mag_le_mag.mpr (by omega)
    have hx1 : x < mag f (d + 1) := not_le.mp fun hx => absurd (h.le_of_mag_le hx) (by omega)
    have hnear := h.nearest (d + 1)
    have habs : |mag f c - x| = x - mag f c := by rw [abs_of_nonpos (by linarith)]; ring
    have habs' : |mag f (d + 1) - x| = mag f (d + 1) - x := abs_of_nonneg (by linarith)
    rw [habs, habs'] at hnear
    have heven : c % 2 = 0 := h.even (d + 1) (by omega) (by rw [habs, habs']; linarith)
    have hcd : c = d := mag_inj.mp (by linarith)
    omega

end

/-! ### The target frame (R138) -/

/-- The binade of the target frame, above that of the subnormals. -/
def targetBinade (f : Fmt) (sig : Nat) (q : Int) : Nat := (targetExp f sig q - (f.emin - f.spec.m)).toNat

theorem targetExp_eq (f : Fmt) (sig : Nat) (q : Int) :
    targetExp f sig q = targetBinade f sig q + (f.emin - f.spec.m) := by
  have := emin_sub_le_targetExp f sig q
  simp only [targetBinade]
  omega

/-- The value is below the end of the target frame's binade. -/
theorem value_lt_binade_end (f : Fmt) (sig : Nat) (q : Int) :
    (sig : ℚ) * 2 ^ q < (2 ^ (f.spec.m + 1) : Nat) * 2 ^ targetExp f sig q := by
  have hexp : (bitlen sig : Int) + q ≤ (f.spec.m + 1 : Nat) + targetExp f sig q := by
    have := bitlen_pos sig
    simp only [targetExp]
    omega
  calc (sig : ℚ) * 2 ^ q < (2 ^ bitlen sig : Nat) * 2 ^ q := by
        gcongr
        exact_mod_cast lt_two_pow_bitlen sig
    _ = 2 ^ ((bitlen sig : Int) + q) := by
        rw [zpow_add₀ two_ne_zero, zpow_natCast, Nat.cast_pow, Nat.cast_ofNat]
    _ ≤ 2 ^ ((f.spec.m + 1 : Nat) + targetExp f sig q) := zpow_le_zpow_right₀ one_le_two hexp
    _ = (2 ^ (f.spec.m + 1) : Nat) * 2 ^ targetExp f sig q := by
        rw [zpow_add₀ two_ne_zero, zpow_natCast, Nat.cast_pow, Nat.cast_ofNat]

/-- The value is at least the start of the target frame's binade, but in the lowest one. -/
theorem binade_start_le_value {f : Fmt} {sig : Nat} {q : Int} (hsig : sig ≠ 0) (hk : targetBinade f sig q ≠ 0) :
    (2 ^ f.spec.m : Nat) * (2 : ℚ) ^ targetExp f sig q ≤ sig * 2 ^ q := by
  have hexp : (f.spec.m : Int) + targetExp f sig q = (bitlen sig - 1 : Nat) + q := by
    simp only [targetBinade, targetExp] at *
    omega
  calc (2 ^ f.spec.m : Nat) * (2 : ℚ) ^ targetExp f sig q = 2 ^ ((f.spec.m : Int) + targetExp f sig q) := by
        rw [zpow_add₀ two_ne_zero, zpow_natCast, Nat.cast_pow, Nat.cast_ofNat]
    _ = (2 ^ (bitlen sig - 1) : Nat) * 2 ^ q := by
        rw [hexp, zpow_add₀ two_ne_zero, zpow_natCast, Nat.cast_pow, Nat.cast_ofNat]
    _ ≤ sig * 2 ^ q := by
        gcongr
        exact_mod_cast two_pow_bitlen_le hsig

/-! ### The rounded significand -/

/-- A significand in the target frame, as a number of units in the last place. -/
theorem units_mul (sig : Nat) (q t : Int) : (sig : ℚ) * 2 ^ (-(t - q)) * 2 ^ t = sig * 2 ^ q := by
  rw [mul_assoc, ← zpow_add₀ two_ne_zero]
  congr 2
  ring

theorem rne_le {sig : Nat} {sh : Int} {z : Nat} (h : (sig : ℚ) * 2 ^ (-sh) ≤ z) : rne sig sh ≤ z := by
  obtain ⟨hup, -⟩ := abs_sub_le_iff.mp (abs_rne_sub_le_half sig sh)
  have hlt : (rne sig sh : ℚ) < (z + 1 : Nat) := by push_cast; linarith
  exact Nat.le_of_lt_succ (by exact_mod_cast hlt)

theorem le_rne {sig : Nat} {sh : Int} {z : Nat} (h : (z : ℚ) ≤ sig * 2 ^ (-sh)) : z ≤ rne sig sh := by
  obtain ⟨-, hdown⟩ := abs_sub_le_iff.mp (abs_rne_sub_le_half sig sh)
  have hlt : (z : ℚ) < (rne sig sh + 1 : Nat) := by push_cast; linarith
  exact Nat.le_of_lt_succ (by exact_mod_cast hlt)

/-- The significand of `sig × 2^q` rounded in its target frame (R131, R138). -/
def roundSig (f : Fmt) (sig : Nat) (q : Int) : Nat := rne sig (targetExp f sig q - q)

/-- The magnitude of the rounded significand, past `MAXFPAT(F)` if it overflows. -/
def roundMag (f : Fmt) (sig : Nat) (q : Int) : Nat := targetBinade f sig q * 2 ^ f.spec.m + roundSig f sig q

/-- The rounded significand stands in the target binade, or at its end. -/
theorem roundSig_in_binade (f : Fmt) {sig : Nat} (hsig : sig ≠ 0) (q : Int) :
    InBinade f (targetBinade f sig q) (roundSig f sig q) ∧ roundSig f sig q ≤ 2 ^ (f.spec.m + 1) := by
  have hpos : (0 : ℚ) < 2 ^ targetExp f sig q := by positivity
  constructor
  · refine or_iff_not_imp_right.mpr fun hk => le_rne ?_
    rw [← mul_le_mul_iff_left₀ hpos, units_mul]
    exact binade_start_le_value hsig hk
  · refine rne_le ?_
    rw [← mul_le_mul_iff_left₀ hpos, units_mul]
    exact (value_lt_binade_end f sig q).le

theorem mag_roundMag (f : Fmt) {sig : Nat} (hsig : sig ≠ 0) (q : Int) :
    mag f (roundMag f sig q) = roundSig f sig q * 2 ^ targetExp f sig q := by
  obtain ⟨hk, hn⟩ := roundSig_in_binade f hsig q
  rw [roundMag, mag_mul_add hk hn, ← targetExp_eq]

/-- The distance to a whole number of units, from the distance in units. -/
theorem abs_units_sub (sig : Nat) (q t : Int) (z : Nat) :
    |(z : ℚ) * 2 ^ t - sig * 2 ^ q| = |(z : ℚ) - sig * 2 ^ (-(t - q))| * 2 ^ t := by
  have hpos : (0 : ℚ) < 2 ^ t := by positivity
  rw [← units_mul sig q t, ← sub_mul, abs_mul, abs_of_pos hpos]

theorem even_two_pow_m (f : Fmt) : 2 ∣ 2 ^ f.spec.m := by cases f <;> decide

theorem roundMag_mod_two (f : Fmt) (sig : Nat) (q : Int) : roundMag f sig q % 2 = roundSig f sig q % 2 := by
  obtain ⟨j, hj⟩ := even_two_pow_m f
  rw [roundMag, hj, Nat.mul_left_comm, Nat.mul_add_mod]

/-- ENC rounds a value to the nearest magnitude, ties to even: the magnitudes in its frame are whole numbers of units, among
which RNE finds the nearest (R131); those below its binade are farther away than the binade's start, which is one of them. -/
theorem roundsTo_roundMag (f : Fmt) {sig : Nat} (hsig : sig ≠ 0) (q : Int) :
    RoundsTo f (sig * 2 ^ q) (roundMag f sig q) := by
  have hpos : (0 : ℚ) < 2 ^ targetExp f sig q := by positivity
  obtain ⟨-, hnear, heven⟩ := roundingIsNearestTiesToEven sig (targetExp f sig q - q)
  have hunits : ∀ z : Nat,
      |mag f (roundMag f sig q) - sig * 2 ^ q| ≤ |(z : ℚ) * 2 ^ targetExp f sig q - sig * 2 ^ q| := by
    intro z
    rw [mag_roundMag f hsig, abs_units_sub, abs_units_sub]
    exact mul_le_mul_of_nonneg_right (hnear z) hpos.le
  have hbelow : ∀ c', targetBinade f sig q ≠ 0 → mag f c' < (2 ^ f.spec.m : Nat) * 2 ^ targetExp f sig q →
      |mag f (roundMag f sig q) - sig * 2 ^ q| < |mag f c' - sig * 2 ^ q| := by
    intro c' hk hlt
    have hstart := binade_start_le_value hsig hk
    refine (hunits (2 ^ f.spec.m)).trans_lt ?_
    rw [abs_of_nonpos (by linarith), abs_of_nonpos (by linarith)]
    linarith
  refine ⟨fun c' => ?_, fun c' hne heq => ?_⟩ <;>
    obtain ⟨z, hz⟩ | ⟨hk, hlt⟩ := mag_multiple_or_below f (targetBinade f sig q) c'
  · rw [hz, ← targetExp_eq]
    exact hunits z
  · exact (hbelow c' hk (targetExp_eq f sig q ▸ hlt)).le
  · rw [← targetExp_eq] at hz
    have hzn : z ≠ roundSig f sig q := by
      rintro rfl
      exact hne (mag_inj.mp (hz.trans (mag_roundMag f hsig q).symm))
    rw [hz, mag_roundMag f hsig, abs_units_sub, abs_units_sub] at heq
    rw [roundMag_mod_two]
    exact heven z hzn (mul_right_cancel₀ hpos.ne' heq)
  · exact absurd heq (hbelow c' hk (targetExp_eq f sig q ▸ hlt)).ne

/-! ### The pattern of a rounded magnitude (R132, R139) -/

/-- The magnitude of the infinity of an IEEE kind is next after the largest finite one; the other kinds end with that. -/
def topMag (f : Fmt) : Nat := if f.spec.kind = .ieee then f.maxPat + 1 else f.maxPat

theorem maxPat_le_topMag (f : Fmt) : f.maxPat ≤ topMag f := by cases f <;> decide

theorem finPat_succ_maxPat {f : Fmt} (hk : f.spec.kind = .ieee) (s : Bool) : finPat f s (f.maxPat + 1) = f.inf s := by
  cases f with
  | bf16 | fp16 => cases s <;> decide
  | e4m3fn | e4m3fnuz => cases hk

theorem finPat_topMag (f : Fmt) (s : Bool) :
    finPat f s (topMag f) = if f.spec.kind = .ieee then f.inf s else f.sat s := by
  unfold topMag
  split_ifs with hk
  · exact finPat_succ_maxPat hk s
  · exact finPat_maxPat f s

/-- PackN puts the binade and the significand together. -/
theorem packN_eq {f : Fmt} (s : Bool) {k n : Nat} (hk : InBinade f k n) (hn : n < 2 ^ (f.spec.m + 1))
    (hc : k * 2 ^ f.spec.m + n < 2 ^ (f.spec.w - 1)) :
    f.packN s n (k + (f.emin - f.spec.m)) = s.toNat * 2 ^ (f.spec.w - 1) + (k * 2 ^ f.spec.m + n) := by
  have hpos : 0 < 2 ^ f.spec.m := by positivity
  rw [Fmt.packN]
  split_ifs with hsub
  · obtain rfl : k = 0 := hk.resolve_left (by omega)
    rw [Nat.zero_mul, Nat.zero_add] at hc ⊢
    rw [← pat_of_magnitude f s hc, Nat.div_eq_of_lt hsub, Nat.mod_eq_of_lt hsub]
  · have hfield : ((k : Int) + (f.emin - f.spec.m) + f.spec.m + f.spec.bias).toNat = k + 1 := by
      rw [Fmt.emin]
      omega
    have hsplit : k * 2 ^ f.spec.m + n = (k + 1) * 2 ^ f.spec.m + (n - 2 ^ f.spec.m) := by
      rw [Nat.succ_mul]
      omega
    have hlow : n - 2 ^ f.spec.m < 2 ^ f.spec.m := by
      rw [pow_succ] at hn
      omega
    rw [← pat_of_magnitude f s hc, hfield, hsplit, Nat.mul_add_mod', Nat.mod_eq_of_lt hlow, Nat.mul_comm,
      Nat.mul_add_div hpos, Nat.div_eq_of_lt hlow, Nat.add_zero]

/-- The overflow test and the packing of a significand in its binade. -/
theorem inf_or_packN_eq {f : Fmt} (s : Bool) {k n : Nat} (hk : InBinade f k n) (hn : n < 2 ^ (f.spec.m + 1))
    (h0 : n ≠ 0) :
    (if magGt n (k + (f.emin - f.spec.m)) f.maxSig f.maxExp then f.inf s
      else f.packN s n (k + (f.emin - f.spec.m))) =
    if f.maxPat < k * 2 ^ f.spec.m + n then f.inf s else finPat f s (k * 2 ^ f.spec.m + n) := by
  have hover : magGt n (k + (f.emin - f.spec.m)) f.maxSig f.maxExp = true ↔ f.maxPat < k * 2 ^ f.spec.m + n := by
    rw [magGt_iff, ← mag_of_lt hk hn, ← mag_lt_mag, mag_maxPat, maxValue]
  simp only [hover]
  split_ifs with hmax
  · rfl
  · rw [finPat_of_ne_zero s (by omega)]
    exact packN_eq s hk hn ((not_lt.mp hmax).trans_lt (maxPat_lt f))

/-- The last lines of ENC's pseudocode on a significand in its binade, or at its end: the infinity past `MAXF(F)`, else the
pattern of the magnitude. -/
theorem finishEnc_eq {f : Fmt} (s : Bool) {k n : Nat} (hk : InBinade f k n) (hn : n ≤ 2 ^ (f.spec.m + 1)) :
    finishEnc f s n (k + (f.emin - f.spec.m)) =
      if f.maxPat < k * 2 ^ f.spec.m + n then f.inf s else finPat f s (k * 2 ^ f.spec.m + n) := by
  rcases eq_or_ne n 0 with rfl | h0
  · obtain rfl : k = 0 := hk.resolve_left (by simp)
    simp
  · rw [finishEnc, if_neg h0]
    obtain hlt | rfl := hn.lt_or_eq
    · simp only [if_neg hlt.ne]
      exact inf_or_packN_eq s hk hlt h0
    · have hlt : 2 ^ f.spec.m < 2 ^ (f.spec.m + 1) := Nat.pow_lt_pow_right one_lt_two (Nat.lt_succ_self _)
      have ht : (k : Int) + (f.emin - f.spec.m) + 1 = (k + 1 : Nat) + (f.emin - f.spec.m) := by push_cast; ring
      have hcarry : k * 2 ^ f.spec.m + 2 ^ (f.spec.m + 1) = (k + 1) * 2 ^ f.spec.m + 2 ^ f.spec.m := by ring
      simp only [if_true, ht, hcarry]
      exact inf_or_packN_eq s (.inl le_rfl) hlt (by positivity)

theorem finishEnc_roundSig (f : Fmt) (s : Bool) {sig : Nat} (hsig : sig ≠ 0) (q : Int) :
    finishEnc f s (roundSig f sig q) (targetExp f sig q) =
      if f.maxPat < roundMag f sig q then f.inf s else finPat f s (roundMag f sig q) := by
  obtain ⟨hk, hn⟩ := roundSig_in_binade f hsig q
  rw [targetExp_eq, finishEnc_eq s hk hn, roundMag]

/-- Below the saturation threshold, and in the IEEE kinds, ENC goes on to its last lines. -/
theorem encFin_of_not_saturated {f : Fmt} (s : Bool) {sig : Nat} {q : Int}
    (h : f.spec.kind = .ieee ∨ (sig : ℚ) * 2 ^ q ≤ maxValue f) :
    encFin f s sig q = finishEnc f s (roundSig f sig q) (targetExp f sig q) :=
  if_neg fun ⟨hk, hgt⟩ => h.elim hk (not_le.mpr ((magGt_iff _ _ _ _).mp hgt))

/-- ENC of a finite nonzero value is the pattern of its rounded magnitude, cut off at the top of the format: at the infinity,
or at the largest finite magnitude. -/
theorem encFin_eq (f : Fmt) (s : Bool) {sig : Nat} (hsig : sig ≠ 0) (q : Int) :
    encFin f s sig q = finPat f s (min (roundMag f sig q) (topMag f)) := by
  have hround := roundsTo_roundMag f hsig q
  by_cases hk : f.spec.kind = .ieee
  · rw [encFin_of_not_saturated s (.inl hk), finishEnc_roundSig f s hsig, topMag, if_pos hk]
    split_ifs with hmax
    · rw [min_eq_right hmax, finPat_succ_maxPat hk]
    · rw [min_eq_left (by omega)]
  · rw [topMag, if_neg hk]
    rcases lt_or_ge (maxValue f) (sig * 2 ^ q) with hsat | hle
    · rw [encFin_of_saturated hk hsat, min_eq_right (hround.le_of_mag_le (mag_maxPat f ▸ hsat.le)), finPat_maxPat]
    · have hmax : roundMag f sig q ≤ f.maxPat := hround.le_of_le_mag (mag_maxPat f ▸ hle)
      rw [encFin_of_not_saturated s (.inr hle), finishEnc_roundSig f s hsig, if_neg (not_lt.mpr hmax),
        min_eq_left hmax]

end Sys2Proof.Machine

/-! ## ENC of a value, and the theorems about DEC and ENC (42_encode.md) -/

namespace Sys2Proof.Machine

/-! ### ENC of a value -/

theorem fields_of_unpack32_zero {w : Word} {s : Bool} (h : unpack32 w = .zero s) :
    sign32 w = s ∧ exp32 w = 0 ∧ frac32 w = 0 := by
  unfold unpack32 at h
  split_ifs at h with hnan hinf hzero
  exact ⟨Canon.zero.inj h, hzero⟩

/-- ENC of a finite word is the pattern of its sign and of the magnitude that the value's magnitude rounds to, cut off at the
top of the format. -/
theorem enc_of_value32 (f : Fmt) {a : Word} {v : ℚ} (h : value32 a = some v) :
    v = signum (sign32 a) * |v| ∧
    ∃ c, RoundsTo f |v| c ∧ enc f a = finPat f (sign32 a) (min c (topMag f)) := by
  cases hu : unpack32 a with
  | nan s => simp [value32, hu, Canon.value] at h
  | inf s => simp [value32, hu, Canon.value] at h
  | zero s =>
    obtain rfl : 0 = v := by simpa [value32, hu, Canon.value] using h
    rw [(fields_of_unpack32_zero hu).1, abs_zero, mul_zero]
    exact ⟨rfl, 0, .zero f, by rw [enc_of_zero hu, Nat.zero_min, finPat_zero]⟩
  | fin s sig q =>
    have hsig := sig_ne_zero_of_unpack32 hu
    obtain rfl : signum s * sig * 2 ^ q = v := by simpa [value32, hu, Canon.value] using h
    rw [sign32_of_unpack32_fin hu, (abs_and_sign_of_fin s hsig q).1, mul_assoc]
    exact ⟨rfl, _, roundsTo_roundMag f hsig q, by rw [enc_of_fin hu, encFin_eq f s hsig]⟩

/-- A word that has the value of a finite magnitude encodes to that magnitude. -/
theorem enc_of_abs_eq_mag {f : Fmt} {a : Word} {v : ℚ} {c : Nat} (h : value32 a = some v) (hv : |v| = mag f c)
    (hc : c ≤ f.maxPat) : enc f a = finPat f (sign32 a) c := by
  obtain ⟨-, c', hround, henc⟩ := enc_of_value32 f h
  rw [hv] at hround
  rw [henc, hround.eq_of_mag, min_eq_left (hc.trans (maxPat_le_topMag f))]

/-! ### Round trip and injectivity -/

/-- DEC keeps the sign and the magnitude of a finite pattern. -/
theorem value32_dec_eq_mag {f : Fmt} {b : Nat} (h : b < 2 ^ f.spec.w) (hfin : IsFinite f b) :
    value32 (dec f b) = some (signum (f.signOf b) * mag f (b % 2 ^ (f.spec.w - 1))) ∧
    sign32 (dec f b) = f.signOf b := by
  obtain ⟨hv, hs⟩ := value32_dec_of_isFinite hfin
  exact ⟨hv.trans (patValue_of_isFinite h hfin), hs⟩

theorem enc_dec_of_isFinite {f : Fmt} {b : Nat} (h : b < 2 ^ f.spec.w) (hfin : IsFinite f b) : enc f (dec f b) = b := by
  obtain ⟨hv, hs⟩ := value32_dec_eq_mag h hfin
  rw [enc_of_abs_eq_mag hv (abs_signum_mul _ (mag_nonneg f _)) (magnitude_le_maxPat hfin), hs,
    ← eq_finPat_of_isFinite h hfin]

theorem isInfPattern_iff {f : Fmt} {b : Nat} (h : b < 2 ^ f.spec.w) :
    isInfPattern f b = true ↔ f.spec.kind = .ieee ∧ b = f.inf (f.signOf b) := by
  have hones : ones f.spec.e % 2 ^ f.spec.e = ones f.spec.e := Nat.mod_eq_of_lt (Nat.sub_one_lt (by positivity))
  rw [isInfPattern, decide_eq_true_eq]
  refine and_congr_right fun _ => ⟨fun ⟨he, hm⟩ => ?_, fun hb => ?_⟩
  · conv_lhs => rw [← pat_fields f h, he, hm]
    rfl
  · rw [hb, Fmt.inf, expOf_pat, manOf_pat, hones]
    exact ⟨rfl, Nat.zero_mod _⟩

theorem enc_dec_of_isInfPattern {f : Fmt} {b : Nat} (h : b < 2 ^ f.spec.w) (hi : isInfPattern f b = true) :
    enc f (dec f b) = b := by
  obtain ⟨hk, hb⟩ := (isInfPattern_iff h).mp hi
  rw [dec_of_isInfPattern hi, enc_of_inf (unpack32_inf _), if_pos hk, ← hb]

/-- Settles O46: a NaN encodes to the one NaN pattern, an infinity to that of its sign, and a finite pattern decodes to the
value of its magnitude, which rounds to itself. -/
theorem decodeThenEncodeRoundTrip : Obligations.DecodeThenEncodeRoundTrip := by
  intro f b h
  obtain ⟨hn, -⟩ | ⟨hn, hi⟩ | hfin := pattern_cases f b
  · obtain ⟨s, hu⟩ := unpack32_dec_of_isNaNPattern hn
    rw [if_pos hn, enc_of_nan hu]
  · rw [hn, if_neg Bool.false_ne_true, enc_dec_of_isInfPattern h hi]
  · rw [hfin.1, if_neg Bool.false_ne_true, enc_dec_of_isFinite h hfin]

/-- The NaN words of two NaN patterns differ in the fields in which the patterns differ. -/
theorem dec_injective_of_isNaNPattern {f : Fmt} {b b' : Nat} (h : b < 2 ^ f.spec.w) (h' : b' < 2 ^ f.spec.w)
    (hn : isNaNPattern f b = true) (hn' : isNaNPattern f b' = true) (heq : dec f b = dec f b') : b = b' := by
  by_cases hk : f.spec.kind = .fnuz
  · rw [isNaNPattern_of_fnuz hk, decide_eq_true_eq] at hn hn'
    rw [hn, hn']
  · have hones : ∀ x, isNaNPattern f x = true → f.expOf x = ones f.spec.e := by
      intro x hx
      cases hkind : f.spec.kind with
      | ieee => exact (decide_eq_true_iff.mp (isNaNPattern_of_ieee hkind x ▸ hx)).1
      | fn => exact (decide_eq_true_iff.mp (isNaNPattern_of_fn hkind x ▸ hx)).1
      | fnuz => exact absurd hkind hk
    have hf : f ≠ .e4m3fnuz := fun hf => hk ((spec_kind_eq_fnuz_iff f).mpr hf)
    rw [dec_of_isNaNPattern hn, dec_of_isNaNPattern hn', if_neg hf, if_neg hf] at heq
    have hs : f.signOf b = f.signOf b' := by simpa using congrArg sign32 heq
    have hm : f.manOf b = f.manOf b' := by
      have hfrac := congrArg frac32 heq
      have hlt := manOf_lt f b
      have hlt' := manOf_lt f b'
      rw [frac32_word32, frac32_word32] at hfrac
      cases f <;> simp only [Fmt.spec] at * <;> omega
    rw [← pat_fields f h, ← pat_fields f h', hs, hm, hones b hn, hones b' hn']

/-- Settles O32: re-encoding gives back every pattern but a NaN, and the NaN words keep the fields. -/
theorem decodingIsInjective : Obligations.DecodingIsInjective := by
  intro f b b' h h' heq
  have hnan : isNaNPattern f b = isNaNPattern f b' := by rw [← isNaN32_dec h, ← isNaN32_dec h', heq]
  have htrip := decodeThenEncodeRoundTrip f b h
  have htrip' := decodeThenEncodeRoundTrip f b' h'
  rw [heq, htrip'] at htrip
  cases hn : isNaNPattern f b with
  | true => exact dec_injective_of_isNaNPattern h h' hn (hnan ▸ hn) heq
  | false => simpa [← hnan, hn] using htrip.symm

/-! ### Overflow -/

/-- The overflow threshold of an IEEE kind is the midpoint between the largest finite magnitude, which is odd, and the next
one (R139). -/
theorem overflowBound_eq {f : Fmt} {bound : ℚ} (h : overflowBound f = some bound) :
    f.spec.kind = .ieee ∧ f.maxPat % 2 = 1 ∧ bound = (mag f f.maxPat + mag f (f.maxPat + 1)) / 2 ∧ 0 < bound := by
  cases f with
  | bf16 | fp16 =>
    obtain rfl := Option.some.inj h
    refine ⟨rfl, by decide, ?_, by norm_num⟩
    norm_num [mag, Fmt.maxPat, Fmt.emin, Fmt.spec]
  | e4m3fn | e4m3fnuz => cases h

theorem RoundsTo.maxPat_lt_iff {f : Fmt} {x bound : ℚ} {c : Nat} (h : RoundsTo f x c)
    (hb : overflowBound f = some bound) : f.maxPat < c ↔ bound ≤ x := by
  obtain ⟨-, hodd, rfl, -⟩ := overflowBound_eq hb
  exact h.lt_iff_of_odd hodd

/-- A value in range rounds to a finite magnitude. -/
theorem RoundsTo.le_maxPat {f : Fmt} {v : ℚ} {c : Nat} (h : RoundsTo f |v| c) (hr : InRange f v) : c ≤ f.maxPat := by
  unfold InRange at hr
  cases hb : overflowBound f with
  | some bound =>
    rw [hb] at hr
    exact not_lt.mp fun hlt => absurd ((h.maxPat_lt_iff hb).mp hlt) (not_le.mpr hr)
  | none =>
    rw [hb] at hr
    exact h.le_of_le_mag (mag_maxPat f ▸ hr)

theorem inf_lt_width (f : Fmt) (s : Bool) : f.inf s < 2 ^ f.spec.w := pat_lt _ _ _ _

theorem isInfPattern_inf {f : Fmt} (hk : f.spec.kind = .ieee) (s : Bool) : isInfPattern f (f.inf s) = true := by
  rw [isInfPattern_iff (inf_lt_width f s), Fmt.inf, signOf_pat]
  exact ⟨hk, rfl⟩

/-- ENC of a finite input gives the infinity of its sign exactly from the overflow threshold on. -/
theorem enc_eq_inf_iff {f : Fmt} {a : Word} {v bound : ℚ} (h : value32 a = some v)
    (hb : overflowBound f = some bound) : enc f a = f.inf (decide (v < 0)) ↔ bound ≤ |v| := by
  obtain ⟨hk, -, -, hpos⟩ := overflowBound_eq hb
  obtain ⟨hsign, c, hround, henc⟩ := enc_of_value32 f h
  rw [← hround.maxPat_lt_iff hb, henc]
  constructor
  · intro hinf
    by_contra hc
    have hfin := isFinite_finPat (sign32 a) (not_lt.mp hc)
    rw [min_eq_left ((not_lt.mp hc).trans (maxPat_le_topMag f))] at hinf
    rw [hinf] at hfin
    exact absurd (hfin.2.symm.trans (isInfPattern_inf hk _)) (by decide)
  · intro hc
    have hv : 0 < |v| := hpos.trans_le ((hround.maxPat_lt_iff hb).mp hc)
    have hs : decide (v < 0) = sign32 a := by
      rw [hsign]
      simp only [signum_mul_neg_iff (sign32 a) hv, Bool.decide_eq_true]
    rw [hs, topMag, if_pos hk, min_eq_right hc, finPat_succ_maxPat hk]

/-- Settles O41: the pattern is the infinity of the value's sign exactly from the threshold on. -/
theorem overflowThresholdOfInfinityFormats : Obligations.OverflowThresholdOfInfinityFormats := by
  intro s r rest v hp hval
  have hinf : ∀ (f : Fmt) (d d' : Word), BitVec.ofNat 32 (f.inf true) = d → BitVec.ofNat 32 (f.inf false) = d' →
      (exec (encInstr f) s = .next { s with
        rspValid := true, rspIll := false, rspD := if v < 0 then d else d' } ↔ enc f r.a = f.inf (decide (v < 0))) := by
    rintro f d d' rfl rfl
    rw [exec_encInstr_iff f hp, ← ofNat_eq_ofNat_iff (enc_lt_width f r.a) (inf_lt_width f _)]
    by_cases hv : v < 0 <;> simp [hv]
  exact ⟨(hinf .bf16 0xFF80 0x7F80 (by decide) (by decide)).trans (enc_eq_inf_iff hval rfl),
    (hinf .fp16 0xFC00 0x7C00 (by decide) (by decide)).trans (enc_eq_inf_iff hval rfl)⟩

/-! ### Correct rounding and exactness -/

theorem abs_signum_mul_sub (s : Bool) (x y : ℚ) : |signum s * x - signum s * y| = |x - y| := by
  cases s
  · simp [signum]
  · rw [signum, if_pos rfl, abs_sub_comm]
    ring_nf

/-- Values of opposite signs are as far apart as their magnitudes make up together. -/
theorem abs_signum_mul_sub_of_ne {s s' : Bool} (h : s' ≠ s) {x y : ℚ} (hx : 0 ≤ x) (hy : 0 ≤ y) :
    |signum s' * y - signum s * x| = y + x := by
  cases s <;> cases s' <;> simp only [ne_eq, reduceCtorEq, not_true_eq_false] at h
  · rw [signum, signum, if_pos rfl, if_neg Bool.false_ne_true, abs_of_nonpos (by linarith)]
    ring
  · rw [signum, signum, if_pos rfl, if_neg Bool.false_ne_true, abs_of_nonneg (by linarith)]
    ring

/-- A rounded magnitude, with the sign of the value, is nearest among the magnitudes with either sign. -/
theorem RoundsTo.nearest_signed {f : Fmt} {x : ℚ} {c : Nat} (h : RoundsTo f x c) (hx : 0 ≤ x) (s s' : Bool) (c' : Nat) :
    |signum s * mag f c - signum s * x| ≤ |signum s' * mag f c' - signum s * x| ∧
    (signum s' * mag f c' ≠ signum s * mag f c →
      |signum s * mag f c - signum s * x| = |signum s' * mag f c' - signum s * x| → c % 2 = 0) := by
  rw [abs_signum_mul_sub]
  rcases eq_or_ne s' s with rfl | hs
  · rw [abs_signum_mul_sub]
    refine ⟨h.nearest c', fun hne => h.even c' ?_⟩
    rintro rfl
    exact hne rfl
  · have hzero : |mag f c - x| ≤ |mag f 0 - x| := h.nearest 0
    have hc' := mag_nonneg f c'
    have habs : |mag f 0 - x| = x := by rw [mag_zero, zero_sub, abs_neg, abs_of_nonneg hx]
    rw [abs_signum_mul_sub_of_ne hs hx hc']
    refine ⟨by linarith, fun _ htie => ?_⟩
    rcases eq_or_ne c 0 with rfl | h0
    · rfl
    · exact h.even 0 h0.symm (by linarith)

theorem manOf_finPat_mod_two {f : Fmt} (s : Bool) {c : Nat} (h : c ≤ f.maxPat) :
    f.manOf (finPat f s c) % 2 = c % 2 := by
  rw [(fields_finPat s (h.trans_lt (maxPat_lt f))).2, Nat.mod_mod_of_dvd c (even_two_pow_m f)]

/-- Settles O44: in range, the encoded magnitude is the one the value's magnitude rounds to. -/
theorem encodingRoundsToNearestEven : Obligations.EncodingRoundsToNearestEven := by
  intro f s r rest v hp hval hr
  obtain ⟨hsign, c, hround, henc⟩ := enc_of_value32 f hval
  have hc := hround.le_maxPat hr
  rw [min_eq_left (hc.trans (maxPat_le_topMag f))] at henc
  refine ⟨enc f r.a, signum (sign32 r.a) * mag f c, (exec_encInstr_iff f hp _).mpr rfl, enc_lt_width f r.a,
    henc ▸ patValue_finPat _ hc, fun hu => ?sign, fun b u' hb hu' => ?nearest⟩
  case sign =>
    have hc0 : c ≠ 0 := by
      rintro rfl
      simp at hu
    have hv0 : |v| ≠ 0 := fun h0 => hc0 (RoundsTo.eq_of_mag (d := 0) (by rwa [h0, ← mag_zero f] at hround))
    have hcpos : 0 < mag f c := (mag_nonneg f c).lt_of_ne fun h => hu (by rw [← h, mul_zero])
    have hvpos : 0 < |v| := (abs_nonneg v).lt_of_ne hv0.symm
    rw [hsign, signum_mul_neg_iff _ hcpos, signum_mul_neg_iff _ hvpos]
  case nearest =>
    obtain ⟨s', c', -, -, rfl⟩ := exists_finPat_of_patValue hb hu'
    rw [henc, manOf_finPat_mod_two _ hc]
    have hnear := hround.nearest_signed (abs_nonneg v) (sign32 r.a) s' c'
    rwa [← hsign] at hnear

/-- A value that the format has is encoded to a pattern of it. -/
theorem patValue_enc_of_representable {f : Fmt} {a : Word} {v : ℚ} (h : value32 a = some v)
    (hrep : ∃ b < 2 ^ f.spec.w, patValue f b = some v) : patValue f (enc f a) = some v := by
  obtain ⟨b, hb, hbv⟩ := hrep
  obtain ⟨s, c, -, hc, hv⟩ := exists_finPat_of_patValue hb hbv
  have habs : |v| = mag f c := hv ▸ abs_signum_mul s (mag_nonneg f c)
  obtain ⟨hsign, -⟩ := enc_of_value32 f h
  rw [enc_of_abs_eq_mag h habs hc, patValue_finPat _ hc, ← habs, ← hsign]

/-- Settles O45: DEC keeps the value of the encoded pattern, which is the input's if the format has it. -/
theorem encodingIsExactWhenRepresentable : Obligations.EncodingIsExactWhenRepresentable := by
  intro f a v h
  have hdec := (decodingIsExact f (enc f a) (enc_lt_width f a)).1
  rw [hdec]
  exact ⟨fun hv => ⟨enc f a, enc_lt_width f a, hv⟩, patValue_enc_of_representable h⟩

/-! ### Monotonicity -/

/-- A signed magnitude up to the top of the format, in the order of the extended rationals. -/
def extMag (f : Fmt) (s : Bool) (c : Nat) : WithBot (WithTop ℚ) :=
  if c ≤ f.maxPat then (((signum s * mag f c : ℚ) : WithTop ℚ) : WithBot (WithTop ℚ))
  else if s then ⊥ else ((⊤ : WithTop ℚ) : WithBot (WithTop ℚ))

theorem extended32_of_value32 {w : Word} {v : ℚ} (h : value32 w = some v) :
    extended32 w = some ((v : WithTop ℚ) : WithBot (WithTop ℚ)) := by
  unfold value32 at h
  unfold extended32
  cases hu : unpack32 w <;> rw [hu] at h <;> cases h <;> rfl

theorem extMag_of_le {f : Fmt} (s : Bool) {c : Nat} (h : c ≤ f.maxPat) :
    extMag f s c = (((signum s * mag f c : ℚ) : WithTop ℚ) : WithBot (WithTop ℚ)) :=
  if_pos h

theorem extMag_of_lt {f : Fmt} (s : Bool) {c : Nat} (h : f.maxPat < c) :
    extMag f s c = if s then ⊥ else ((⊤ : WithTop ℚ) : WithBot (WithTop ℚ)) :=
  if_neg (not_le.mpr h)

/-- The decoded pattern of a magnitude up to the top of the format, an infinity only at the top. -/
theorem extended32_dec_finPat {f : Fmt} (s : Bool) {c : Nat} (h : c ≤ topMag f) :
    extended32 (dec f (finPat f s c)) = some (extMag f s c) := by
  rcases le_or_gt c f.maxPat with hc | hc
  · rw [extMag_of_le s hc]
    exact extended32_of_value32 ((value32_dec_of_isFinite (isFinite_finPat s hc)).1.trans (patValue_finPat s hc))
  · have hk : f.spec.kind = .ieee := by
      by_contra hk
      rw [topMag, if_neg hk] at h
      exact absurd h (not_le.mpr hc)
    rw [topMag, if_pos hk] at h
    obtain rfl : c = f.maxPat + 1 := le_antisymm h hc
    rw [extMag_of_lt s hc, finPat_succ_maxPat hk, extended32, dec_of_isInfPattern (isInfPattern_inf hk s), Fmt.inf,
      signOf_pat, unpack32_inf]
    cases s <;> rfl

/-- Positive magnitudes are in their own order. -/
theorem extMag_false_mono (f : Fmt) : Monotone (extMag f false) := by
  intro c c' h
  rcases le_or_gt c' f.maxPat with hc' | hc'
  · rw [extMag_of_le _ hc', extMag_of_le _ (h.trans hc'), WithBot.coe_le_coe, WithTop.coe_le_coe]
    simpa [signum, mag_le_mag] using h
  · rw [extMag_of_lt false hc']
    rcases le_or_gt c f.maxPat with hc | hc
    · rw [extMag_of_le _ hc, if_neg Bool.false_ne_true, WithBot.coe_le_coe]
      exact le_top
    · rw [extMag_of_lt _ hc]

/-- Negative magnitudes are in the opposite order. -/
theorem extMag_true_anti (f : Fmt) : Antitone (extMag f true) := by
  intro c c' h
  rcases le_or_gt c' f.maxPat with hc' | hc'
  · rw [extMag_of_le _ hc', extMag_of_le _ (h.trans hc'), WithBot.coe_le_coe, WithTop.coe_le_coe]
    simpa [signum, mag_le_mag] using h
  · rw [extMag_of_lt true hc', if_pos rfl]
    exact bot_le

theorem extMag_zero (f : Fmt) (s : Bool) : extMag f s 0 = ((0 : WithTop ℚ) : WithBot (WithTop ℚ)) := by
  simp [extMag]

/-- The order of two values of given signs, on their magnitudes. -/
theorem extMag_le_of_le {f : Fmt} {s s' : Bool} {x y : ℚ} {c c' : Nat} (hx : 0 ≤ x) (hy : 0 ≤ y)
    (hc : RoundsTo f x c) (hc' : RoundsTo f y c') (h : signum s * x ≤ signum s' * y) :
    extMag f s (min c (topMag f)) ≤ extMag f s' (min c' (topMag f)) := by
  cases s <;> cases s' <;>
    simp only [signum, Bool.false_eq_true, if_false, if_true, one_mul, neg_mul, neg_le_neg_iff] at h
  case false.false => exact extMag_false_mono f (min_le_min_right _ (hc.mono hc' h))
  case true.true => exact extMag_true_anti f (min_le_min_right _ (hc'.mono hc h))
  case true.false =>
    calc extMag f true (min c (topMag f)) ≤ extMag f true 0 := extMag_true_anti f (Nat.zero_le _)
      _ = extMag f false 0 := by rw [extMag_zero, extMag_zero]
      _ ≤ extMag f false (min c' (topMag f)) := extMag_false_mono f (Nat.zero_le _)
  case false.true =>
    obtain rfl : x = 0 := by linarith
    obtain rfl : y = 0 := by linarith
    rw [← mag_zero f] at hc hc'
    rw [hc.eq_of_mag, hc'.eq_of_mag, Nat.zero_min, extMag_zero, extMag_zero]

/-- Settles O47: the rounded magnitudes are in the order of the values, and so are they cut off at the top of the format;
values that the format has are encoded exactly. -/
theorem encodingIsMonotone : Obligations.EncodingIsMonotone := by
  intro f x y vx vy hx hy
  constructor
  · intro hle
    obtain ⟨hsx, c, hc, hencx⟩ := enc_of_value32 f hx
    obtain ⟨hsy, c', hc', hency⟩ := enc_of_value32 f hy
    rw [hencx, hency]
    refine ⟨_, _, extended32_dec_finPat _ (min_le_right _ _), extended32_dec_finPat _ (min_le_right _ _), ?_⟩
    exact extMag_le_of_le (abs_nonneg vx) (abs_nonneg vy) hc hc' (by rwa [← hsx, ← hsy])
  · intro hlt hrepx hrepy
    refine ⟨_, _, extended32_of_value32 ((encodingIsExactWhenRepresentable f x vx hx).mpr hrepx),
      extended32_of_value32 ((encodingIsExactWhenRepresentable f y vy hy).mpr hrepy), ?_⟩
    rwa [WithBot.coe_lt_coe, WithTop.coe_lt_coe]

/-! ### No NaN from another class, and the order of the overflow test -/

theorem enc_eq_finPat_of_not_nan (f : Fmt) {a : Word} (h : isNaN32 a = false) :
    ∃ s c, enc f a = finPat f s c ∧ c ≤ topMag f := by
  cases hu : unpack32 a with
  | nan s => exact absurd (isNaN32_iff.mpr ⟨s, hu⟩) (by simp [h])
  | inf s => exact ⟨s, topMag f, by rw [enc_of_inf hu, finPat_topMag], le_rfl⟩
  | zero s => exact ⟨s, 0, enc_of_zero hu, Nat.zero_le _⟩
  | fin s sig q =>
    exact ⟨s, _, by rw [enc_of_fin hu, encFin_eq f s (sig_ne_zero_of_unpack32 hu)], min_le_right _ _⟩

/-- Up to the top of the format a magnitude makes no NaN pattern. -/
theorem isNaNPattern_finPat (f : Fmt) (s : Bool) {c : Nat} (h : c ≤ topMag f) :
    isNaNPattern f (finPat f s c) = false := by
  rcases le_or_gt c f.maxPat with hc | hc
  · exact (isFinite_finPat s hc).1
  · cases f with
    | bf16 | fp16 =>
      obtain rfl : c = Fmt.maxPat _ + 1 := le_antisymm h hc
      cases s <;> decide
    | e4m3fn | e4m3fnuz => exact absurd h (not_le.mpr hc)

/-- Settles O48: every other class encodes to a magnitude up to the top of the format. -/
theorem naNPatternOnlyFromNaN : Obligations.NaNPatternOnlyFromNaN := by
  intro f a h
  obtain ⟨s, c, henc, hc⟩ := enc_eq_finPat_of_not_nan f h
  exact ⟨henc ▸ isNaNPattern_finPat f s hc, enc_lt_width f a⟩

/-- Settles O49: the test after rounding compares the rounded magnitude with the largest finite one, to which the saturated
inputs round at least. -/
theorem overflowTestOrderIsImmaterial : Obligations.OverflowTestOrderIsImmaterial := by
  intro f a hk
  cases hu : unpack32 a with
  | nan s => rw [enc_of_nan hu, encTestedAfterRounding, hu]
  | inf s => rw [enc_of_inf hu, encTestedAfterRounding, hu]
  | zero s => rw [enc_of_zero hu, encTestedAfterRounding, hu]
  | fin s sig q =>
    have hsig := sig_ne_zero_of_unpack32 hu
    have hover : magGt (roundSig f sig q) (targetExp f sig q) f.maxSig f.maxExp = true ↔
        f.maxPat < roundMag f sig q := by
      rw [magGt_iff, ← mag_roundMag f hsig, ← mag_lt_mag, mag_maxPat, maxValue]
    rw [enc_of_fin hu, encFin_eq f s hsig, encTestedAfterRounding, hu]
    have hfold : rne sig (targetExp f sig q - q) = roundSig f sig q := rfl
    simp only [hfold, hover, if_neg hk, finishEnc_roundSig f s hsig, topMag]
    split_ifs with hmax
    · rw [min_eq_right hmax.le, finPat_maxPat]
    · rw [min_eq_left (not_lt.mp hmax)]

end Sys2Proof.Machine

/-! ## ENC.BF16 in closed form (42_encode.md R140) -/

namespace Sys2Proof.Machine

/-- A finite nonzero word is a subnormal, of its fraction, or a normal, with the leading bit. -/
theorem fields_of_unpack32_fin {w : Word} {s : Bool} {sig : Nat} {q : Int} (h : unpack32 w = .fin s sig q) :
    (exp32 w = 0 ∧ sig = frac32 w ∧ q = -149) ∨
    (0 < exp32 w ∧ exp32 w < 255 ∧ sig = 2 ^ 23 + frac32 w ∧ q = (exp32 w : Int) - 150) := by
  have hlt := exp32_lt w
  unfold unpack32 at h
  split_ifs at h with hnan hinf hzero hsub <;> injection h with hs hsig hq
  · exact .inl ⟨hsub, hsig.symm, hq.symm⟩
  · exact .inr ⟨by omega, by omega, hsig.symm, hq.symm⟩

theorem fields_of_unpack32_inf {w : Word} {s : Bool} (h : unpack32 w = .inf s) :
    sign32 w = s ∧ exp32 w = 255 ∧ frac32 w = 0 := by
  unfold unpack32 at h
  split_ifs at h with hnan hinf
  exact ⟨Canon.inf.inj h, hinf, not_not.mp fun hf => hnan ⟨hinf, hf⟩⟩

theorem toNat_eq_fields (w : Word) : w.toNat = (sign32 w).toNat * 2 ^ 31 + (exp32 w * 2 ^ 23 + frac32 w) := by
  have he := exp32_lt w
  have hf := frac32_lt w
  conv_lhs => rw [← word32_fields w, toNat_word32]
  omega

/-- BF16 has the exponent range of binary32, so ENC cuts 16 bits off the significand in every binade, the subnormals'
included; binade and significand together are the low 31 bits of the word. -/
theorem bf16_target_of_unpack32_fin {w : Word} {s : Bool} {sig : Nat} {q : Int} (h : unpack32 w = .fin s sig q) :
    targetExp .bf16 sig q - q = 16 ∧ exp32 w * 2 ^ 23 + frac32 w = targetBinade .bf16 sig q * 2 ^ 23 + sig := by
  have hf := frac32_lt w
  have hsig := sig_ne_zero_of_unpack32 h
  simp only [targetBinade, targetExp, Fmt.emin, Fmt.spec]
  obtain ⟨he, rfl, rfl⟩ | ⟨he, he', rfl, rfl⟩ := fields_of_unpack32_fin h
  · have hlen : bitlen (frac32 w) - 1 < 23 :=
      (Nat.pow_lt_pow_iff_right one_lt_two).mp ((two_pow_bitlen_le hsig).trans_lt hf)
    omega
  · have hlen : bitlen (2 ^ 23 + frac32 w) = 23 + 1 := bitlen_eq (by omega) (by omega)
    rw [hlen]
    omega

/-- RNE of 16 bits is the addition of just under half a unit and of the bit that decides ties. -/
theorem rne_sixteen (sig : Nat) : rne sig 16 = (sig + 0x7FFF + sig / 2 ^ 16 % 2) / 2 ^ 16 := by
  obtain ⟨⟨hup, hdown⟩, hnear, heven⟩ := rne_of_pos sig 16 (by decide)
  simp only [Nat.cast_ofNat] at *
  omega

/-- The rounding addition on the low half passes the sign and the binade by. -/
theorem upper_half_rounded {s k sig : Nat} (hs : s ≤ 1) (hlt : k * 2 ^ 23 + sig < 0x7F800000) :
    s * 2 ^ 15 + (k * 2 ^ 7 + (sig + 0x7FFF + sig / 2 ^ 16 % 2) / 2 ^ 16) =
      (s * 2 ^ 31 + (k * 2 ^ 23 + sig) + 0x7FFF + (s * 2 ^ 31 + (k * 2 ^ 23 + sig)) / 2 ^ 16 % 2) / 2 ^ 16 %
        2 ^ 16 := by
  have hbit : (s * 2 ^ 31 + (k * 2 ^ 23 + sig)) / 2 ^ 16 % 2 = sig / 2 ^ 16 % 2 := by omega
  rw [hbit]
  omega

/-- ENC.BF16 of a word that is no NaN is the word's upper half after the rounding addition. -/
theorem enc_bf16_of_not_nan {a : Word} (h : isNaN32 a = false) :
    enc .bf16 a = (a.toNat + 0x7FFF + a.toNat / 2 ^ 16 % 2) / 2 ^ 16 % 2 ^ 16 := by
  have hlow := toNat_eq_fields a
  cases hu : unpack32 a with
  | nan s => exact absurd (isNaN32_iff.mpr ⟨s, hu⟩) (by simp [h])
  | inf s =>
    obtain ⟨hs, he, hf⟩ := fields_of_unpack32_inf hu
    rw [enc_of_inf hu, hlow, hs, he, hf]
    cases s <;> decide
  | zero s =>
    obtain ⟨hs, he, hf⟩ := fields_of_unpack32_zero hu
    rw [enc_of_zero hu, hlow, hs, he, hf]
    cases s <;> decide
  | fin s sig q =>
    obtain ⟨hsh, hbits⟩ := bf16_target_of_unpack32_fin hu
    have hlt : exp32 a * 2 ^ 23 + frac32 a < 0x7F800000 := by
      have hf := frac32_lt a
      obtain ⟨he, -⟩ | ⟨-, he, -⟩ := fields_of_unpack32_fin hu <;> omega
    have htop : topMag .bf16 = 0x7F80 := rfl
    have hs := toNat_le_one s
    rw [enc_of_fin hu, encFin_eq _ s (sig_ne_zero_of_unpack32 hu), roundMag, roundSig, hsh, rne_sixteen,
      finPat_of_not_fnuz (by decide), htop, hlow, sign32_of_unpack32_fin hu]
    rw [hbits] at hlt ⊢
    generalize targetBinade .bf16 sig q = k at hlt ⊢
    have hle : k * 2 ^ 7 + (sig + 0x7FFF + sig / 2 ^ 16 % 2) / 2 ^ 16 ≤ 0x7F80 := by omega
    simp only [Fmt.spec, min_eq_left hle]
    exact upper_half_rounded hs hlt

/-- Settles O35: a NaN gives its one pattern, every other word the rounded upper half. -/
theorem encBf16IsRoundedUpperHalf : Obligations.EncBf16IsRoundedUpperHalf := by
  refine (answers_encInstr .bf16).congr fun a => ?_
  unfold encBf16Formula
  split_ifs with hnan
  · rw [enc_of_nan (unpack32_of_nan ((exp32_eq a).trans hnan.1) (frac32_eq a ▸ hnan.2))]
    rfl
  · rw [enc_bf16_of_not_nan]
    exact decide_eq_false fun h => hnan ⟨exp32_eq a ▸ h.1, frac32_eq a ▸ h.2⟩

end Sys2Proof.Machine

/-! ## CVT (43_convert.md R170 to R186) -/

namespace Sys2Proof.Machine

/-- Settles O51: CVT of a format to itself is the round trip of O46. -/
theorem cvtToTheSameFormatIsIdentity : Obligations.CvtToTheSameFormatIsIdentity := by
  intro f
  refine (answers_cvtInstr f f).congr fun a => ?_
  rw [cvt, decodeThenEncodeRoundTrip f _ (narrowOperand_lt f a), narrowResult, zext32]
  exact apply_ite (BitVec.ofNat 32) _ _ _

/-! ### CVT by the class of its pattern -/

theorem cvt_of_isNaNPattern {fa : Fmt} (fb : Fmt) {b : Nat} (h : isNaNPattern fa b = true) : cvt fa fb b = fb.qnan := by
  obtain ⟨s, hu⟩ := unpack32_dec_of_isNaNPattern h
  exact enc_of_nan hu

theorem cvt_of_isInfPattern {fa : Fmt} (fb : Fmt) {b : Nat} (h : isInfPattern fa b = true) :
    cvt fa fb b = finPat fb (fa.signOf b) (topMag fb) := by
  rw [cvt, dec_of_isInfPattern h, enc_of_inf (unpack32_inf _), finPat_topMag]

/-- CVT of a finite pattern keeps the sign and rounds the magnitude. -/
theorem cvt_of_isFinite {fa : Fmt} (fb : Fmt) {b : Nat} (h : b < 2 ^ fa.spec.w) (hfin : IsFinite fa b) :
    ∃ c, RoundsTo fb (mag fa (b % 2 ^ (fa.spec.w - 1))) c ∧
      cvt fa fb b = finPat fb (fa.signOf b) (min c (topMag fb)) := by
  obtain ⟨hv, hs⟩ := value32_dec_eq_mag h hfin
  obtain ⟨-, c, hround, henc⟩ := enc_of_value32 fb hv
  rw [abs_signum_mul _ (mag_nonneg _ _)] at hround
  exact ⟨c, hround, hs ▸ henc⟩

/-- A magnitude that the target format has is kept. -/
theorem cvt_of_mag_eq {fa fb : Fmt} {b c : Nat} (h : b < 2 ^ fa.spec.w) (hfin : IsFinite fa b)
    (hmag : mag fb c = mag fa (b % 2 ^ (fa.spec.w - 1))) (hc : c ≤ fb.maxPat) :
    cvt fa fb b = finPat fb (fa.signOf b) c := by
  obtain ⟨c', hround, hcvt⟩ := cvt_of_isFinite fb h hfin
  rw [← hmag] at hround
  rw [hcvt, hround.eq_of_mag, min_eq_left (hc.trans (maxPat_le_topMag fb))]

/-! ### From an 8-bit format to a 16-bit one -/

/-- A significand of at most `M + 1` bits above the last place of the subnormals is a magnitude of the format. -/
theorem exists_mag_eq_mul {f : Fmt} {n : Nat} {t : Int} (hn : n < 2 ^ (f.spec.m + 1)) (ht : f.emin - f.spec.m ≤ t) :
    ∃ c, mag f c = n * 2 ^ t := by
  rcases eq_or_ne n 0 with rfl | h0
  · exact ⟨0, by simp⟩
  · have hlen : bitlen n - 1 < f.spec.m + 1 :=
      (Nat.pow_lt_pow_iff_right one_lt_two).mp ((two_pow_bitlen_le h0).trans_lt hn)
    have hexp : targetExp f n t - t ≤ 0 := by
      simp only [targetExp]
      omega
    exact ⟨roundMag f n t, by rw [mag_roundMag f h0, roundSig, cast_rne_of_nonpos n hexp, units_mul]⟩

/-- The 16-bit formats have every finite magnitude of the 8-bit ones. -/
theorem exists_wide_mag_eq {f g : Fmt} (hf : f.spec.w = 8) (hg : g.spec.w = 16) {c : Nat} (hc : c ≤ f.maxPat) :
    ∃ c' ≤ g.maxPat, mag g c' = mag f c := by
  obtain ⟨k, n, rfl, hn, hk⟩ := exists_binade f c
  have hsig : 2 ^ (f.spec.m + 1) ≤ 2 ^ (g.spec.m + 1) := by revert hf hg; cases f <;> cases g <;> decide
  have hexp : g.emin - g.spec.m ≤ f.emin - f.spec.m := by revert hf hg; cases f <;> cases g <;> decide
  have hmax : maxValue f ≤ maxValue g := by
    cases f <;> cases g <;> simp only [Fmt.spec, Nat.reduceEqDiff] at hf hg <;>
      norm_num [maxValue, Fmt.maxSig, Fmt.maxExp]
  obtain ⟨c', hc'⟩ := exists_mag_eq_mul (f := g) (t := k + (f.emin - f.spec.m)) (hn.trans_le hsig) (by omega)
  rw [← mag_of_lt hk hn] at hc'
  refine ⟨c', mag_le_maxValue.mp ?_, hc'⟩
  rw [hc']
  exact (mag_le_maxValue.mpr hc).trans hmax

/-- Settles O52: the magnitude is one of the wider format's. -/
theorem cvtWideningIsExact : Obligations.CvtWideningIsExact := by
  intro f g b hf hg hb
  refine ⟨fun hn => ?_, cvt_of_isNaNPattern g⟩
  have hkf : f.spec.kind ≠ .ieee := by revert hf; cases f <;> decide
  have hkg : g.spec.kind ≠ .fnuz := by revert hg; cases g <;> decide
  rw [← hf] at hb
  have hfin : IsFinite f b := (isFinite_iff_of_not_ieee hkf).mpr hn
  obtain ⟨c, hc, hmag⟩ := exists_wide_mag_eq hf hg (magnitude_le_maxPat hfin)
  rw [cvt_of_mag_eq hb hfin hmag hc, patValue_finPat _ hc, hmag, patValue_of_isFinite hb hfin]
  exact ⟨rfl, rfl, signOf_finPat _ (hc.trans_lt (maxPat_lt g)) (.inr hkg)⟩

/-! ### Between the 8-bit formats -/

theorem magnitude_of_byte (f : Fmt) (hf : f.spec.w = 8) (a : Word) :
    narrowOperand f a % 2 ^ (f.spec.w - 1) = a.toNat % 2 ^ 7 := by
  simp only [narrowOperand, hf]
  omega

/-- A result word of a sign and a magnitude. -/
theorem narrowResult_finPat_of_byte {f g : Fmt} (hf : f.spec.w = 8) (hg : g.spec.w = 8) (a : Word) {c : Nat}
    (h : c ≠ 0 ∨ g.spec.kind ≠ .fnuz) :
    narrowResult (finPat g (f.signOf (narrowOperand f a)) c) = BitVec.ofNat 32 (a.toNat / 2 ^ 7 % 2 * 2 ^ 7 + c) := by
  have hs : (f.signOf (narrowOperand f a)).toNat = a.toNat / 2 ^ 7 % 2 := by
    rw [signOf_narrowOperand, hf, BitVec.getLsbD, Nat.toNat_testBit]
  have hpat := h.elim (finPat_of_ne_zero (f.signOf (narrowOperand f a))) (fun hk => finPat_of_not_fnuz hk _ c)
  rw [hpat, hs, hg]
  rfl

/-- The last place of the subnormals of E4M3FNUZ is half that of E4M3FN. -/
theorem mag_e4m3fn_of_lt {c : Nat} (h : c < 2 ^ 4) :
    mag .e4m3fn c = c * 2 ^ (-9 : Int) ∧ mag .e4m3fnuz c = c * 2 ^ (-10 : Int) := by
  have hfn := mag_of_lt (f := .e4m3fn) (k := 0) (n := c) (.inr rfl) h
  have hfnuz := mag_of_lt (f := .e4m3fnuz) (k := 0) (n := c) (.inr rfl) h
  rw [Nat.zero_mul, Nat.zero_add] at hfn hfnuz
  exact ⟨hfn, hfnuz⟩

theorem mag_e4m3fnuz_two_mul {c : Nat} (h : c < 2 ^ 3) : mag .e4m3fnuz (2 * c) = mag .e4m3fn c := by
  rw [(mag_e4m3fn_of_lt (by omega : 2 * c < 2 ^ 4)).2, (mag_e4m3fn_of_lt (by omega : c < 2 ^ 4)).1]
  push_cast
  norm_num
  ring

/-- A normal value has an exponent field one higher in E4M3FNUZ, whose bias is one more. -/
theorem mag_e4m3fnuz_add_eight {c : Nat} (h : 2 ^ 3 ≤ c) : mag .e4m3fnuz (c + 8) = mag .e4m3fn c := by
  obtain ⟨k, n, rfl, hn, hk⟩ := exists_binade .e4m3fn c
  have hnorm : 2 ^ 3 ≤ n := hk.elim id fun hk => by simpa [hk] using h
  have hnext : k * 2 ^ Fmt.e4m3fn.spec.m + n + 8 = (k + 1) * 2 ^ Fmt.e4m3fnuz.spec.m + n := by
    simp only [Fmt.spec]
    omega
  have hexp : ((k + 1 : Nat) : Int) + (Fmt.e4m3fnuz.emin - Fmt.e4m3fnuz.spec.m) =
      k + (Fmt.e4m3fn.emin - Fmt.e4m3fn.spec.m) := by
    simp only [Fmt.emin, Fmt.spec]
    omega
  rw [hnext, mag_of_lt (f := .e4m3fnuz) (.inl hnorm) hn, mag_of_lt hk hn, hexp]

theorem isFinite_e4m3fn_iff {b : Nat} : IsFinite .e4m3fn b ↔ b % 2 ^ 7 ≠ 0x7F := by
  obtain ⟨he, hm⟩ := fields_of_magnitude .e4m3fn b
  rw [isFinite_iff_of_not_ieee (by decide), isNaNPattern_of_fn rfl, he, hm, decide_eq_false_iff_not]
  simp only [Fmt.spec, ones]
  omega

theorem isFinite_e4m3fnuz_iff {b : Nat} : IsFinite .e4m3fnuz b ↔ b ≠ 0x80 := by
  rw [isFinite_iff_of_not_ieee (by decide), ← Bool.not_eq_true, isNaNPattern_e4m3fnuz_iff]

/-- The magnitudes 256 to 448 of E4M3FN round to the largest finite one of E4M3FNUZ, or past it. -/
theorem maxPat_le_of_roundsTo_e4m3fn {m c : Nat} (h : RoundsTo .e4m3fnuz (mag .e4m3fn m) c) (hm : 0x78 ≤ m) :
    0x7F ≤ c := by
  have h256 : mag .e4m3fn 0x78 = 256 := by norm_num [mag, Fmt.emin, Fmt.spec]
  have hmax : mag .e4m3fnuz 0x7F = 240 := (mag_maxPat .e4m3fnuz).trans maxValue_e4m3fnuz
  have hle : mag .e4m3fn 0x78 ≤ mag .e4m3fn m := mag_le_mag.mpr hm
  exact h.le_of_mag_le (by linarith)

/-- Settles O53: each clause names the magnitude of E4M3FNUZ that has the value, or that it rounds to. -/
theorem cvtE4m3fnToE4m3fnuz : Obligations.CvtE4m3fnToE4m3fnuz := by
  refine (answers_cvtInstr .e4m3fn .e4m3fnuz).congr fun a => ?_
  have hb : narrowOperand .e4m3fn a < 2 ^ 8 := narrowOperand_lt .e4m3fn a
  have hmag : narrowOperand .e4m3fn a % 2 ^ 7 = a.toNat % 2 ^ 7 := magnitude_of_byte .e4m3fn rfl a
  have hfin : a.toNat % 2 ^ 7 ≠ 0x7F → IsFinite .e4m3fn (narrowOperand .e4m3fn a) := fun h =>
    isFinite_e4m3fn_iff.mpr (by rwa [hmag])
  have hexact : ∀ c ≤ 0x7F, a.toNat % 2 ^ 7 ≠ 0x7F → mag .e4m3fnuz c = mag .e4m3fn (a.toNat % 2 ^ 7) →
      cvt .e4m3fn .e4m3fnuz (narrowOperand .e4m3fn a) =
        finPat .e4m3fnuz (Fmt.signOf .e4m3fn (narrowOperand .e4m3fn a)) c :=
    fun c hc hnan h => cvt_of_mag_eq hb (hfin hnan) (by rw [h, ← hmag]; rfl) hc
  have hlt : a.toNat % 2 ^ 7 < 2 ^ 7 := Nat.mod_lt _ (by decide)
  unfold e4m3fnToE4m3fnuz
  dsimp only
  split_ifs with hnan hsat h0 hsub
  · have hn : isNaNPattern .e4m3fn (narrowOperand .e4m3fn a) = true :=
      (isNaNPattern_e4m3fn_iff hb).mpr (by omega)
    rw [cvt_of_isNaNPattern _ hn]
    rfl
  · obtain ⟨c, hround, hcvt⟩ := cvt_of_isFinite .e4m3fnuz hb (hfin hnan)
    have hc := maxPat_le_of_roundsTo_e4m3fn hround (le_of_le_of_eq hsat hmag.symm)
    rw [hcvt, min_eq_right (show topMag .e4m3fnuz ≤ c from hc)]
    exact narrowResult_finPat_of_byte rfl rfl a (.inl (by decide))
  · rw [hexact 0 (by decide) hnan (by rw [h0, mag_zero, mag_zero]), finPat_zero]
    rfl
  · rw [hexact (2 * (a.toNat % 2 ^ 7)) (by omega) hnan (mag_e4m3fnuz_two_mul hsub)]
    exact narrowResult_finPat_of_byte rfl rfl a (.inl (by omega))
  · rw [hexact (a.toNat % 2 ^ 7 + 8) (by omega) hnan (mag_e4m3fnuz_add_eight (by omega))]
    exact narrowResult_finPat_of_byte rfl rfl a (.inl (by omega))

/-- Half a magnitude below 16, ties to even: an even magnitude halves exactly, an odd one lies in the middle of two. -/
theorem eq_half_of_roundsTo_e4m3fn {m c : Nat} (h : RoundsTo .e4m3fn (mag .e4m3fnuz m) c) (hm : m < 16) :
    c = m / 2 + if m % 4 = 3 then 1 else 0 := by
  have hval : ∀ j ≤ m / 2 + 1, mag .e4m3fn j = j * 2 ^ (-9 : Int) := fun j hj => (mag_e4m3fn_of_lt (by omega)).1
  have hx : mag .e4m3fnuz m = m * 2 ^ (-10 : Int) := (mag_e4m3fn_of_lt hm).2
  have hstep : (2 : ℚ) ^ (-9 : Int) = 2 * 2 ^ (-10 : Int) := by norm_num
  have hpos : (0 : ℚ) < 2 ^ (-10 : Int) := by positivity
  obtain ⟨j, hj⟩ : ∃ j, j = m / 2 := ⟨_, rfl⟩
  rcases Nat.mod_two_eq_zero_or_one m with h2 | h2
  · have hmj : m = 2 * j := by omega
    have heq : mag .e4m3fnuz m = mag .e4m3fn j := by
      rw [hmj, mag_e4m3fnuz_two_mul (by omega)]
    rw [heq] at h
    rw [h.eq_of_mag, if_neg (by omega)]
    omega
  · have hmid : mag .e4m3fnuz m = (mag .e4m3fn j + mag .e4m3fn (j + 1)) / 2 := by
      have hm' : (m : ℚ) = 2 * j + 1 := by exact_mod_cast (by omega : m = 2 * j + 1)
      rw [hx, hval j (by omega), hval (j + 1) (by omega), hstep, hm']
      push_cast
      ring
    have hlt : mag .e4m3fn j < mag .e4m3fn (j + 1) := mag_lt_mag.mpr j.lt_succ_self
    have hlow : j ≤ c := h.le_of_mag_le (by linarith)
    have hhigh : c ≤ j + 1 := h.le_of_le_mag (by linarith)
    rcases Nat.mod_two_eq_zero_or_one j with hj2 | hj2
    · rw [if_neg (by omega)]
      have hne : c ≠ j + 1 := by
        rintro rfl
        have heven := h.even j (by omega) (by rw [hmid, abs_of_nonneg (by linarith), abs_of_nonpos (by linarith)]; ring)
        omega
      omega
    · rw [if_pos (by omega)]
      have := (h.lt_iff_of_odd hj2).mpr hmid.ge
      omega

/-- Settles O54: the two lowest binades are rounded to the coarser last place, every other magnitude is one of E4M3FN. -/
theorem cvtE4m3fnuzToE4m3fn : Obligations.CvtE4m3fnuzToE4m3fn := by
  refine (answers_cvtInstr .e4m3fnuz .e4m3fn).congr fun a => ?_
  have hb : narrowOperand .e4m3fnuz a < 2 ^ 8 := narrowOperand_lt .e4m3fnuz a
  have hmag : narrowOperand .e4m3fnuz a % 2 ^ 7 = a.toNat % 2 ^ 7 := magnitude_of_byte .e4m3fnuz rfl a
  have hlt : a.toNat % 2 ^ 7 < 2 ^ 7 := Nat.mod_lt _ (by decide)
  have hnan_iff : narrowOperand .e4m3fnuz a = 0x80 ↔ a.toNat / 2 ^ 7 % 2 * 2 ^ 7 = 0x80 ∧ a.toNat % 2 ^ 7 = 0 := by
    simp only [narrowOperand, Fmt.spec]
    omega
  unfold e4m3fnuzToE4m3fn
  by_cases hnan : a.toNat / 2 ^ 7 % 2 * 2 ^ 7 = 0x80 ∧ a.toNat % 2 ^ 7 = 0
  · rw [if_pos hnan, cvt_of_isNaNPattern _ ((isNaNPattern_e4m3fnuz_iff _).mpr (hnan_iff.mpr hnan))]
    rfl
  have hfin := isFinite_e4m3fnuz_iff.mpr (mt hnan_iff.mp hnan)
  rw [if_neg hnan]
  by_cases hlow : a.toNat % 2 ^ 7 < 16
  · obtain ⟨c, hround, hcvt⟩ := cvt_of_isFinite .e4m3fn hb hfin
    have hc : c = a.toNat % 2 ^ 7 / 2 + if a.toNat % 2 ^ 7 % 4 = 3 then 1 else 0 :=
      hmag ▸ eq_half_of_roundsTo_e4m3fn hround (lt_of_eq_of_lt hmag hlow)
    have hle : c ≤ 8 := by split_ifs at hc <;> omega
    rw [if_pos hlow, hcvt, min_eq_left (hle.trans (by decide)), narrowResult_finPat_of_byte rfl rfl a (.inr (by decide)),
      hc, Nat.add_assoc]
  · have hexact : mag .e4m3fn (a.toNat % 2 ^ 7 - 8) = mag .e4m3fnuz (a.toNat % 2 ^ 7) := by
      rw [← mag_e4m3fnuz_add_eight (by omega), Nat.sub_add_cancel (by omega)]
    have hmax : a.toNat % 2 ^ 7 - 8 ≤ Fmt.e4m3fn.maxPat := by
      simp only [Fmt.maxPat]
      omega
    rw [if_neg hlow, cvt_of_mag_eq hb hfin (by rw [hexact, ← hmag]; rfl) hmax,
      narrowResult_finPat_of_byte rfl rfl a (.inr (by decide)), Nat.add_sub_assoc (by omega)]

end Sys2Proof.Machine

/-! ## The range ends of CVT, and the constants (43_convert.md R172 to R178, 44_const_query.md R190) -/

namespace Sys2Proof.Machine

/-! ### Where a format ends -/

/-- The values that encode to the top of the format start here: the overflow threshold of an IEEE kind (R139), `MAXF(F)` of
the others (R136). -/
def topStart (f : Fmt) : ℚ := (overflowBound f).getD (maxValue f)

theorem overflowBound_isSome (f : Fmt) : (overflowBound f).isSome = decide (f.spec.kind = .ieee) := by
  cases f <;> rfl

theorem RoundsTo.topMag_le {f : Fmt} {x : ℚ} {c : Nat} (h : RoundsTo f x c) (hx : topStart f ≤ x) : topMag f ≤ c := by
  rw [topStart] at hx
  cases hb : overflowBound f with
  | some bound =>
    rw [hb, Option.getD_some] at hx
    rw [topMag, if_pos (overflowBound_eq hb).1]
    exact (h.maxPat_lt_iff hb).mpr hx
  | none =>
    have hk : f.spec.kind ≠ .ieee := by simpa [hb] using overflowBound_isSome f
    rw [hb, Option.getD_none, ← mag_maxPat] at hx
    rw [topMag, if_neg hk]
    exact h.le_of_mag_le hx

/-- A magnitude up to one in range is in range. -/
theorem InRange.mono {f : Fmt} {v w : ℚ} (h : InRange f w) (hvw : |v| ≤ |w|) : InRange f v := by
  unfold InRange at *
  cases hb : overflowBound f <;> rw [hb] at h
  · exact hvw.trans h
  · exact hvw.trans_lt h

/-- ENC gives the zero of the sign exactly up to half the smallest subnormal. -/
theorem enc_eq_zero_iff {f : Fmt} {a : Word} {v : ℚ} (h : value32 a = some v) :
    enc f a = f.zero (sign32 a) ↔ |v| ≤ underflowBound f := by
  rcases eq_or_ne v 0 with rfl | hv
  · refine iff_of_true ?_ (by cases f <;> norm_num [underflowBound])
    rw [enc_of_abs_eq_mag h (by rw [abs_zero, mag_zero]) (Nat.zero_le _), finPat_zero]
  · obtain ⟨s, sig, q, hu, hsig, habs, -⟩ := exists_fin_of_value32 h hv
    rw [enc_of_fin hu, sign32_of_unpack32_fin hu, encFin_eq_zero_iff s hsig, habs]

/-! ### The stated ends -/

/-- What the two ends of a conversion say about the magnitudes next to them. -/
structure EndsAt (fa fb : Fmt) (hi lo : Nat) : Prop where
  hi_pos : 0 < hi
  hi_le : hi ≤ fa.maxPat + 1
  overflows : hi ≤ fa.maxPat → topStart fb ≤ mag fa hi
  inRange : InRange fb (mag fa (hi - 1))
  lo_le : lo ≤ fa.maxPat
  underflows : mag fa lo ≤ underflowBound fb
  survives : underflowBound fb < mag fa (lo + 1)

/-- The stated ends, evaluated: BF16 and FP16 are the sources, and each pair is numbers. -/
theorem endsAt_of_rangeEnds {fa fb : Fmt} {hi lo : Nat} (h : rangeEnds fa fb = some (hi, lo)) :
    fa.spec.kind = .ieee ∧ fa.spec.w = 16 ∧ EndsAt fa fb hi lo := by
  cases fa <;> cases fb <;> cases h <;> refine ⟨rfl, rfl, ?_⟩ <;> constructor <;>
    norm_num [mag, topStart, InRange, overflowBound, underflowBound, maxValue, Fmt.maxSig, Fmt.maxExp, Fmt.maxPat,
      Fmt.emin, Fmt.spec]

/-- A pattern of an IEEE kind is finite exactly up to `MAXFPAT(F)`. -/
theorem isFinite_iff_magnitude_le {f : Fmt} (hk : f.spec.kind = .ieee) {b : Nat} (h : b < 2 ^ f.spec.w) :
    IsFinite f b ↔ b % 2 ^ (f.spec.w - 1) ≤ f.maxPat := by
  refine ⟨magnitude_le_maxPat, fun hc => ?_⟩
  have hb := eq_sign_add_magnitude h
  rw [← finPat_of_not_fnuz (by simp [hk])] at hb
  exact hb ▸ isFinite_finPat _ hc

theorem qnan_ne_zero (f : Fmt) (s : Bool) : f.qnan ≠ f.zero s := by cases f <;> cases s <;> decide

theorem signOf_of_width_16 {f : Fmt} (hw : f.spec.w = 16) (b : Nat) : f.signOf b = b.testBit 15 := by
  rw [Fmt.signOf, hw, Nat.testBit_eq_decide_div_mod_eq]
  rfl

section

variable {fa fb : Fmt} {hi lo b : Nat}

/-- From the upper end on, infinities included, a conversion gives the top of the target format. -/
theorem EndsAt.cvt_eq_top (h : EndsAt fa fb hi lo) (hb : b < 2 ^ fa.spec.w) (hn : isNaNPattern fa b = false)
    (hhi : hi ≤ b % 2 ^ (fa.spec.w - 1)) : cvt fa fb b = finPat fb (fa.signOf b) (topMag fb) := by
  obtain ⟨hnan, -⟩ | ⟨-, hinf⟩ | hfin := pattern_cases fa b
  · rw [hn] at hnan
    cases hnan
  · exact cvt_of_isInfPattern fb hinf
  · obtain ⟨c, hround, hcvt⟩ := cvt_of_isFinite fb hb hfin
    have htop : topMag fb ≤ c :=
      hround.topMag_le ((h.overflows (hhi.trans (magnitude_le_maxPat hfin))).trans (mag_le_mag.mpr hhi))
    rw [hcvt, min_eq_right htop]

/-- Below the upper end a conversion gives a finite pattern. -/
theorem EndsAt.isFinite_cvt (h : EndsAt fa fb hi lo) (hk : fa.spec.kind = .ieee) (hb : b < 2 ^ fa.spec.w)
    (hhi : b % 2 ^ (fa.spec.w - 1) < hi) : IsFinite fb (cvt fa fb b) := by
  have hhi_le := h.hi_le
  have hfin : IsFinite fa b := (isFinite_iff_magnitude_le hk hb).mpr (by omega)
  obtain ⟨c, hround, hcvt⟩ := cvt_of_isFinite fb hb hfin
  have hle : mag fa (b % 2 ^ (fa.spec.w - 1)) ≤ mag fa (hi - 1) := mag_le_mag.mpr (Nat.le_sub_one_of_lt hhi)
  have hrange : InRange fb (mag fa (b % 2 ^ (fa.spec.w - 1))) := by
    refine h.inRange.mono ?_
    rwa [abs_of_nonneg (mag_nonneg _ _), abs_of_nonneg (mag_nonneg _ _)]
  have hc : c ≤ fb.maxPat := RoundsTo.le_maxPat (by rwa [abs_of_nonneg (mag_nonneg _ _)]) hrange
  rw [hcvt, min_eq_left (hc.trans (maxPat_le_topMag fb))]
  exact isFinite_finPat _ hc

/-- Up to the lower end, and only there, a conversion gives the zero. -/
theorem EndsAt.cvt_eq_zero_iff (h : EndsAt fa fb hi lo) (hk : fa.spec.kind = .ieee) (hb : b < 2 ^ fa.spec.w) :
    b % 2 ^ (fa.spec.w - 1) ≤ lo ↔ cvt fa fb b = fb.zero (fa.signOf b) := by
  have hspecial : ¬ IsFinite fa b → ¬ b % 2 ^ (fa.spec.w - 1) ≤ lo := fun hnot hle =>
    hnot ((isFinite_iff_magnitude_le hk hb).mpr (hle.trans h.lo_le))
  obtain ⟨hnan, -⟩ | ⟨-, hinf⟩ | hfin := pattern_cases fa b
  · refine iff_of_false (hspecial fun hfin => ?_) ?_
    · exact absurd (hfin.1.symm.trans hnan) Bool.false_ne_true
    · rw [cvt_of_isNaNPattern fb hnan]
      exact qnan_ne_zero fb _
  · refine iff_of_false (hspecial fun hfin => ?_) ?_
    · exact absurd (hfin.2.symm.trans hinf) Bool.false_ne_true
    · rw [cvt_of_isInfPattern fb hinf, finPat_topMag]
      split_ifs
      · exact inf_ne_zero fb _
      · exact sat_ne_zero fb _
  · obtain ⟨hv, hs⟩ := value32_dec_eq_mag hb hfin
    rw [cvt, ← hs, enc_eq_zero_iff hv, abs_signum_mul _ (mag_nonneg _ _)]
    constructor
    · exact fun hle => (mag_le_mag.mpr hle).trans h.underflows
    · exact fun hle => Nat.le_of_lt_succ (mag_lt_mag.mp (hle.trans_lt h.survives))

end

/-- Settles O55: the source's magnitudes are in the order of their values, so the stated ends decide. -/
theorem cvtRangeEnds : Obligations.CvtRangeEnds := by
  intro fa fb hi lo b hends hb
  obtain ⟨hk, hw, h⟩ := endsAt_of_rangeEnds hends
  have hb' : b < 2 ^ fa.spec.w := by rwa [hw]
  have hmag : b % 2 ^ (fa.spec.w - 1) = b % 2 ^ 15 := by rw [hw]
  rw [← signOf_of_width_16 hw, ← finPat_topMag, ← hmag]
  exact ⟨cvt_of_isNaNPattern fb, h.cvt_eq_top hb', h.cvt_eq_zero_iff hk hb',
    fun hhi => isFinite_iff_isSome_patValue.mp (h.isFinite_cvt hk hb' hhi)⟩

/-! ### The constants -/

theorem finPat_false (f : Fmt) (c : Nat) : finPat f false c = c := by
  rcases eq_or_ne c 0 with rfl | h0
  · cases f <;> rfl
  · rw [finPat_of_ne_zero false h0, Bool.toNat_false, Nat.zero_mul, Nat.zero_add]

/-- A pattern without the sign bit has the value of its magnitude. -/
theorem patValue_of_le_maxPat {f : Fmt} {c : Nat} (h : c ≤ f.maxPat) : patValue f c = some (mag f c) := by
  have hpat := patValue_finPat false h
  rwa [finPat_false, signum, if_neg Bool.false_ne_true, one_mul] at hpat

/-- A positive value is that of its magnitude. -/
theorem exists_mag_of_pos {f : Fmt} {b : Nat} {v : ℚ} (hb : b < 2 ^ f.spec.w) (hv : patValue f b = some v)
    (hpos : 0 < v) : v = mag f (b % 2 ^ (f.spec.w - 1)) ∧ b % 2 ^ (f.spec.w - 1) ≤ f.maxPat := by
  have hfin := isFinite_of_patValue hv
  have hval := hv.symm.trans (patValue_of_isFinite hb hfin)
  rw [Option.some_inj] at hval
  have hmag := mag_nonneg f (b % 2 ^ (f.spec.w - 1))
  refine ⟨?_, magnitude_le_maxPat hfin⟩
  cases hs : f.signOf b with
  | false => simpa [hs, signum] using hval
  | true =>
    rw [hs, signum, if_pos rfl] at hval
    linarith

theorem const_minnorm (f : Fmt) : const f .minnorm = 2 ^ f.spec.m ∧ 2 ^ f.spec.m ≤ f.maxPat ∧
    mag f (2 ^ f.spec.m) = 2 ^ f.emin := by
  refine ⟨by cases f <;> rfl, by cases f <;> decide, ?_⟩
  cases f <;> norm_num [mag, Fmt.emin, Fmt.spec]

/-- The magnitude of 1.0 has the bias as its exponent field, the next one is `2^-M` above, and EPS is that difference. -/
theorem const_eps (f : Fmt) : const f .eps ≤ f.maxPat ∧ f.spec.bias * 2 ^ f.spec.m + 1 ≤ f.maxPat ∧
    mag f (f.spec.bias * 2 ^ f.spec.m) = 1 ∧
    mag f (f.spec.bias * 2 ^ f.spec.m + 1) = 1 + mag f (const f .eps) := by
  refine ⟨by cases f <;> decide, by cases f <;> decide, ?_, ?_⟩ <;>
    cases f <;> norm_num [mag, const, Fmt.pat, Fmt.emin, Fmt.spec]

theorem maxPat_lt_width (f : Fmt) : f.maxPat < 2 ^ f.spec.w := by cases f <;> decide

/-- Settles O57: the values of a format are in the order of their magnitudes, in which each constant has its place. -/
theorem constantsAreTheLimitsTheyName : Obligations.ConstantsAreTheLimitsTheyName := by
  intro f
  obtain ⟨hmin, hminle, hminmag⟩ := const_minnorm f
  obtain ⟨heps, hnext, hone, hnextmag⟩ := const_eps f
  refine ⟨?maxfin, ?greatest, ?minnorm, ?least, ⟨mag f (const f .eps), ?eps, ?next, ?gap⟩, ?qnan, ?inf⟩
  case maxfin =>
    rw [← mag_maxPat]
    exact patValue_of_le_maxPat le_rfl
  case greatest =>
    intro b v hb hv
    obtain ⟨s, c, -, hc, rfl⟩ := exists_finPat_of_patValue hb hv
    exact (le_abs_self _).trans ((abs_signum_mul s (mag_nonneg f c)).trans_le (mag_le_maxValue.mpr hc))
  case minnorm => rw [hmin, ← hminmag, patValue_of_le_maxPat hminle]
  case least =>
    intro b v hb hv hpos he
    obtain ⟨rfl, -⟩ := exists_mag_of_pos hb hv hpos
    rw [(fields_of_magnitude f b).1] at he
    rw [← hminmag, mag_le_mag]
    exact not_lt.mp fun hlt => he (Nat.div_eq_of_lt hlt)
  case eps => exact patValue_of_le_maxPat heps
  case next =>
    exact ⟨_, hnext.trans_lt (maxPat_lt_width f), (patValue_of_le_maxPat hnext).trans (congrArg some hnextmag)⟩
  case gap =>
    intro b v hb hv hlt
    obtain ⟨rfl, -⟩ := exists_mag_of_pos hb hv (one_pos.trans hlt)
    rw [← hone, mag_lt_mag] at hlt
    rw [← hnextmag, mag_le_mag]
    exact hlt
  case qnan => cases f <;> decide
  case inf =>
    intro hk
    exact ⟨isInfPattern_inf hk false, signOf_pat _ _ _ _, isInfPattern_inf hk true, signOf_pat _ _ _ _⟩

end Sys2Proof.Machine
